-- ==== Sys2Proof/Word.lean ====
section
/-! DEFINITION. The word types of the 8BitCPU core (spec/00_scope.md R7, R9). -/

namespace Sys2Proof

/-- A byte: A, B, SP, a memory cell, the second byte of an instruction (R7 "data width"). -/
abbrev Byte := BitVec 8

/-- A nibble: the opcode field or the operand field of a first byte (R7, R71). -/
abbrev Nibble := BitVec 4

end Sys2Proof
end

