-- ==== Sys2Proof/Config.lean ====
section
/-! DEFINITION. What the spec leaves to the implementation. The one open parameter is `RUN_CAP`
(spec/00_scope.md R8, spec/92_eei_decisions.md D18; log 18). -/

namespace Sys2Proof.Config

/-- An unknown natural: nothing in Lean can evaluate it. `runCap` is one more than it. -/
opaque runCapPred : Nat

/-- `RUN_CAP`, "a positive natural number" (R8). It bounds only the host call `run()` (R102). -/
def runCap : Nat := runCapPred + 1

end Sys2Proof.Config
end

