-- ==== Sys2Proof/Syntax.lean ====
section
/-! DEFINITION. The instructions: one constructor per row of spec/opcode_table.json, in its order
(spec/30_encoding.md R77, R78). Ignored nibbles are no operand (R74), and the second byte of a
two-byte instruction is no part of what the decoder reads (R79, R92): `Code` pairs the two (log 10). -/

namespace Sys2Proof

/-- What the decoder makes of a first byte (R79). -/
inductive Instr where
  /-- LOAD, 0x00..0x0F and an immediate byte (R110). -/
  | load
  /-- STORE d, 0x10..0x1F (R111). -/
  | store (d : Nibble)
  /-- ADD d, 0x20..0x2F (R121). -/
  | add (d : Nibble)
  /-- SUB d, 0x30..0x3F (R122). -/
  | sub (d : Nibble)
  /-- AND d, 0x40..0x4F (R123). -/
  | and (d : Nibble)
  /-- OR d, 0x50..0x5F (R124). -/
  | or (d : Nibble)
  /-- XOR d, 0x60..0x6F (R125). -/
  | xor (d : Nibble)
  /-- NOT, 0x70..0x7F (R126). -/
  | not
  /-- SHL, 0x80..0x8F (R127). -/
  | shl
  /-- SHR, 0x90..0x9F (R128). -/
  | shr
  /-- JMP, 0xA0..0xAF and an offset byte (R140). -/
  | jmp
  /-- JZ, 0xB0..0xBF and an offset byte (R141). -/
  | jz
  /-- JNZ, 0xC0..0xCF and an offset byte (R142). -/
  | jnz
  /-- CALL, 0xD0..0xDF: target bits 11:8, and a byte with target bits 7:0 (R143, R75). -/
  | call (h : Nibble)
  /-- RET, 0xE0..0xEF (R144). -/
  | ret
  /-- HALT, 0xF0 (R145). -/
  | halt
  /-- IN, 0xF1 (R160). -/
  | inp
  /-- OUT, 0xF2 (R161). -/
  | out
  /-- DISP, 0xF3 (R163). -/
  | disp
  /-- CURS, 0xF4 (R164). -/
  | curs
  /-- CLR, 0xF5 (R165). -/
  | clr
  /-- GMODE, 0xF6 (R166). -/
  | gmode
  /-- GPIX, 0xF7 (R167). -/
  | gpix
  /-- SCROLL, 0xF8 (R168). -/
  | scroll
  /-- The illegal byte 0xF9 (R78). -/
  | illegalF9
  /-- The illegal bytes 0xFA and 0xFB (R78): `x` is bit 0. -/
  | illegalFA (x : BitVec 1)
  /-- The illegal bytes 0xFC to 0xFF (R78): `x` is bits 1:0. -/
  | illegalFC (x : BitVec 2)
  deriving DecidableEq, Repr

/-- An instruction as it stands in memory or in the assembler's output: what its first byte decodes
to, and its second byte where it has one (R70, R72). -/
structure Code where
  instr : Instr
  operand : Option Byte
  deriving DecidableEq, Repr

end Sys2Proof
end

