-- ==== Sys2Proof/WellFormed.lean ====
section
/-! DEFINITION. When a `Code` is an instruction of the machine: it has a second byte exactly if its
length is 2 (spec/30_encoding.md R70, R73). Every value of a nibble or of a second byte is legal
(R74, R76), so no other check is needed. -/

namespace Sys2Proof

/-- The length in bytes, fixed by the first byte alone (R70, R73, R77). -/
def Instr.length : Instr → Nat
  | .load | .jmp | .jz | .jnz | .call _ => 2
  | .store _ | .add _ | .sub _ | .and _ | .or _ | .xor _ => 1
  | .not | .shl | .shr | .ret | .halt => 1
  | .inp | .out | .disp | .curs | .clr | .gmode | .gpix | .scroll => 1
  | .illegalF9 | .illegalFA _ | .illegalFC _ => 1

/-- The second byte is there exactly if the length is 2. -/
def Code.wellFormed (c : Code) : Bool := c.operand.isSome == (c.instr.length == 2)

end Sys2Proof
end

