-- ==== Sys2Proof/Decode.lean ====
section
/-! DEFINITION. The decoder and the encoder (spec/30_encoding.md R70 to R79). -/

namespace Sys2Proof

/-- The opcode field, bits 7:4 (R71). -/
def opcodeField (b : Byte) : Nibble := b.extractLsb' 4 4

/-- The operand field, bits 3:0 (R71). -/
def operandField (b : Byte) : Nibble := b.extractLsb' 0 4

/-- The 0xF group is selected by the whole byte (R71, R77, R78; 90_conflicts.md C5). -/
def decodeSys (f : Nibble) : Instr :=
  match f.toNat with
  | 0x0 => .halt
  | 0x1 => .inp
  | 0x2 => .out
  | 0x3 => .disp
  | 0x4 => .curs
  | 0x5 => .clr
  | 0x6 => .gmode
  | 0x7 => .gpix
  | 0x8 => .scroll
  | 0x9 => .illegalF9
  | 0xA | 0xB => .illegalFA (f.extractLsb' 0 1)
  | _ => .illegalFC (f.extractLsb' 0 2)

/-- `Decode(ir)` of R79: total on bytes, reads the first byte only. -/
def decodeFirst (ir : Byte) : Instr :=
  let nib := operandField ir
  match (opcodeField ir).toNat with
  | 0x0 => .load
  | 0x1 => .store nib
  | 0x2 => .add nib
  | 0x3 => .sub nib
  | 0x4 => .and nib
  | 0x5 => .or nib
  | 0x6 => .xor nib
  | 0x7 => .not
  | 0x8 => .shl
  | 0x9 => .shr
  | 0xA => .jmp
  | 0xB => .jz
  | 0xC => .jnz
  | 0xD => .call nib
  | 0xE => .ret
  | _ => decodeSys nib

/-- Why a byte sequence is no whole instruction. -/
inductive DecodeError where
  /-- There is no first byte. -/
  | noBytes
  /-- The first byte is that of a two-byte instruction and no byte follows it. -/
  | secondByteMissing (i : Instr)
  deriving DecidableEq, Repr

/-- One instruction off the front of a byte sequence, and the bytes after it. -/
def decode : List Byte → Except DecodeError (Code × List Byte)
  | [] => .error .noBytes
  | ir :: rest =>
    let i := decodeFirst ir
    if i.length = 2 then
      match rest with
      | [] => .error (.secondByteMissing i)
      | b2 :: rest' => .ok (⟨i, some b2⟩, rest')
    else .ok (⟨i, none⟩, rest)

/-- The first byte of each instruction (R72, R77); an ignored nibble is written as 0, as the
assembler writes it (R74, R196). -/
def encodeFirst : Instr → Byte
  | .load => 0x00
  | .store d => 0x1#4 ++ d
  | .add d => 0x2#4 ++ d
  | .sub d => 0x3#4 ++ d
  | .and d => 0x4#4 ++ d
  | .or d => 0x5#4 ++ d
  | .xor d => 0x6#4 ++ d
  | .not => 0x70
  | .shl => 0x80
  | .shr => 0x90
  | .jmp => 0xA0
  | .jz => 0xB0
  | .jnz => 0xC0
  | .call h => 0xD#4 ++ h
  | .ret => 0xE0
  | .halt => 0xF0
  | .inp => 0xF1
  | .out => 0xF2
  | .disp => 0xF3
  | .curs => 0xF4
  | .clr => 0xF5
  | .gmode => 0xF6
  | .gpix => 0xF7
  | .scroll => 0xF8
  | .illegalF9 => 0xF9
  | .illegalFA x => 0x7D#7 ++ x
  | .illegalFC x => 0x3F#6 ++ x

/-- The bytes of an instruction, the first at the lower address (R55, R72). -/
def encode (c : Code) : List Byte := encodeFirst c.instr :: c.operand.toList

/-- The two bytes an opcode-table word stands for: bit 0 is the least significant bit of the first
byte, and every bit from `nbits` up is 0. -/
def tableBytes (nbits w : Nat) : Byte × Byte :=
  (BitVec.ofNat 8 (w % 2 ^ nbits), BitVec.ofNat 8 (w % 2 ^ nbits / 256))

/-- The instruction the decoder reads from an opcode-table word. -/
def decodeTableWord (nbits w : Nat) : Option Instr :=
  match decode [(tableBytes nbits w).1, (tableBytes nbits w).2] with
  | .ok (c, _) => some c.instr
  | .error _ => none

/-- A row of the opcode map R77: the first bytes `b` with `b &&& mask = pattern`. -/
structure OpcodeRow where
  mnemonic : String
  pattern : Byte
  mask : Byte
  length : Nat
  deriving DecidableEq, Repr

/-- The opcode map R77 row by row, with the illegal bytes of R78 (spec/opcode_table.json). -/
def opcodeTable : List OpcodeRow :=
  [⟨"LOAD", 0x00, 0xF0, 2⟩, ⟨"STORE", 0x10, 0xF0, 1⟩, ⟨"ADD", 0x20, 0xF0, 1⟩, ⟨"SUB", 0x30, 0xF0, 1⟩,
   ⟨"AND", 0x40, 0xF0, 1⟩, ⟨"OR", 0x50, 0xF0, 1⟩, ⟨"XOR", 0x60, 0xF0, 1⟩, ⟨"NOT", 0x70, 0xF0, 1⟩,
   ⟨"SHL", 0x80, 0xF0, 1⟩, ⟨"SHR", 0x90, 0xF0, 1⟩,
   ⟨"JMP", 0xA0, 0xF0, 2⟩, ⟨"JZ", 0xB0, 0xF0, 2⟩, ⟨"JNZ", 0xC0, 0xF0, 2⟩, ⟨"CALL", 0xD0, 0xF0, 2⟩,
   ⟨"RET", 0xE0, 0xF0, 1⟩, ⟨"HALT", 0xF0, 0xFF, 1⟩,
   ⟨"IN", 0xF1, 0xFF, 1⟩, ⟨"OUT", 0xF2, 0xFF, 1⟩, ⟨"DISP", 0xF3, 0xFF, 1⟩, ⟨"CURS", 0xF4, 0xFF, 1⟩,
   ⟨"CLR", 0xF5, 0xFF, 1⟩, ⟨"GMODE", 0xF6, 0xFF, 1⟩, ⟨"GPIX", 0xF7, 0xFF, 1⟩, ⟨"SCROLL", 0xF8, 0xFF, 1⟩,
   ⟨"ILLEGAL", 0xF9, 0xFF, 1⟩, ⟨"ILLEGAL", 0xFA, 0xFE, 1⟩, ⟨"ILLEGAL", 0xFC, 0xFC, 1⟩]

/-- The first byte `b` belongs to row `r`. -/
def OpcodeRow.covers (r : OpcodeRow) (b : Byte) : Bool := b &&& r.mask == r.pattern

/-- The mnemonic of each constructor, as spec/opcode_table.json spells it (LAWS.json). -/
def Instr.mnemonic : Instr → String
  | .load => "LOAD"
  | .store _ => "STORE"
  | .add _ => "ADD"
  | .sub _ => "SUB"
  | .and _ => "AND"
  | .or _ => "OR"
  | .xor _ => "XOR"
  | .not => "NOT"
  | .shl => "SHL"
  | .shr => "SHR"
  | .jmp => "JMP"
  | .jz => "JZ"
  | .jnz => "JNZ"
  | .call _ => "CALL"
  | .ret => "RET"
  | .halt => "HALT"
  | .inp => "IN"
  | .out => "OUT"
  | .disp => "DISP"
  | .curs => "CURS"
  | .clr => "CLR"
  | .gmode => "GMODE"
  | .gpix => "GPIX"
  | .scroll => "SCROLL"
  | .illegalF9 | .illegalFA _ | .illegalFC _ => "ILLEGAL"

end Sys2Proof
end

