-- ==== Sys2Proof/Machine/State.lean ====
section
/-! DEFINITION. The architectural state (spec/10_state.md R20 to R42), the reasons a step can stop,
and the state after reset. -/

namespace Sys2Proof.Machine

/-- Memory (R21): the cells that differ from `Memory.unlisted`, addresses strictly rising (log 27). -/
abbrev Memory := List Host.Cell

/-- What an unlisted address reads as: the reset value of every cell (R42, R53; D4). -/
def Memory.unlisted : Byte := 0x00

/-- Addresses strictly rising from `lo` and below 256 (R54), no cell equal to `unlisted`. -/
def Memory.wfFrom (lo : Nat) : Memory → Bool
  | [] => true
  | (k, v) :: rest =>
    decide (lo ≤ k) && decide (k < 256) && v != Memory.unlisted && Memory.wfFrom (k + 1) rest

/-- The canonical form of memory: equal memories are equal lists. -/
def Memory.wf (m : Memory) : Bool := Memory.wfFrom 0 m

/-- Why the machine halted (R32). -/
inductive HaltReason where
  | none
  | haltInstruction
  | memoryOutOfRange
  | stackOverflow
  | stackUnderflow
  | illegalInstruction
  deriving DecidableEq, Repr

/-- The display mode (R35). -/
inductive DisplayMode where
  | text
  | graphics
  deriving DecidableEq, Repr

/-- The wait inside IN (R41, R97): which call of the host it is a part of (log 2). -/
inductive InWait where
  /-- No IN waits: the machine is between steps. -/
  | none
  /-- The IN of a step waits; PC is still that before its fetch (R97). -/
  | step
  /-- The IN of a `run()` waits as that of a step does; `run()` has completed `count` steps (R102, R103). -/
  | run (count : Nat)
  /-- The IN of an `execute(0xF1)` waits; it had no fetch, and PC stays (R99). -/
  | execute
  deriving DecidableEq, Repr

/-- The text grid (R38): `text[y][x]` is row `y`, column `x`. -/
abbrev TextGrid := Vector (Vector Byte 16) 4

/-- The graphics grid (R39): `gfx[y][x]` is the pixel at column `x`, row `y`. -/
abbrev GfxGrid := Vector (Vector Bool 32) 32

/-- A text grid of blank cells, 0x20 (R42, R165; D12). -/
def blankText : TextGrid := Vector.replicate 4 (Vector.replicate 16 0x20)

/-- A graphics grid of blank pixels, 0 (R42, R165; D12). -/
def blankGfx : GfxGrid := Vector.replicate 32 (Vector.replicate 32 false)

/-- There is none: every condition of the spec that ends execution is a halt the spec describes, so it
is a next state (60_exceptions.md R231; log 7), a halted machine keeps its state (R95; log 4) and a
waiting IN is a state of the machine (R41, R97; log 2). No one raises it; safe. -/
inductive Fault where
  deriving DecidableEq, Repr

/-- Why an instruction is refused. -/
inductive Refusal where
  /-- Raised by `exec` for an instruction that has no meaning yet; safe. No arm raises it now. -/
  | notModelled (mnemonic : String)
  deriving DecidableEq, Repr

/-- The state record R20, then the wait inside IN, which R41 counts as state seen only indirectly, and the
model's own view of the host's channels (R43). -/
structure State where
  /-- Memory (R21). -/
  mem : Memory
  /-- The accumulator A (R22). -/
  a : Byte
  /-- The general register B, which no instruction names (R23). -/
  b : Byte
  /-- The stack pointer (R24). -/
  sp : Byte
  /-- The program counter, 0..256; 256 is END (R25; D1, log 5). -/
  pc : Fin 257
  /-- The zero flag (R27). -/
  z : Bool
  /-- The negative flag (R28). -/
  n : Bool
  /-- The carry flag (R29). -/
  c : Bool
  /-- Set by HALT and by every fault, cleared by reset alone (R31). -/
  halted : Bool
  /-- Why the machine halted (R32). -/
  haltReason : HaltReason
  /-- Gates interrupt entry; only the host writes it (R33). -/
  interruptEnabled : Bool
  /-- The cell that holds the handler's address; only the host writes it (R34). -/
  interruptVector : Byte
  /-- The display mode (R35). -/
  displayMode : DisplayMode
  /-- The cursor's column (R36). -/
  cursorX : Fin 16
  /-- The cursor's row (R36). -/
  cursorY : Fin 4
  /-- The scroll offset (R37). -/
  scrollOffset : Fin 4
  /-- The text grid (R38). -/
  text : TextGrid
  /-- The graphics grid (R39). -/
  gfx : GfxGrid
  /-- The wait inside IN (R41, R97; log 2). -/
  inWait : InWait
  /-- The model's own: the host's answers no IN has taken yet, oldest first (R97, R105; log 1). -/
  hostInput : List (Option Byte)
  /-- The model's own: the bytes OUT has emitted, oldest first (R96, R161; log 3). -/
  hostOutput : List Byte
  deriving DecidableEq, Repr

/-- The state after reset (R42, R260). -/
def State.reset : State where
  mem := []
  a := 0x00
  b := 0x00
  sp := 0xFF
  pc := 0
  z := false
  n := false
  c := false
  halted := false
  haltReason := .none
  interruptEnabled := false
  interruptVector := 0x00
  displayMode := .text
  cursorX := 0
  cursorY := 0
  scrollOffset := 0
  text := blankText
  gfx := blankGfx
  inWait := .none
  hostInput := []
  hostOutput := []

end Sys2Proof.Machine
end

