-- ==== Sys2Proof/Machine/Flags.lean ====
section
/-! DEFINITION. Every flag computation of the spec: Z and N from A at the end of a step
(spec/40_execution_cycle.md R94), C from the shifts (spec/10_state.md R29). -/

namespace Sys2Proof.Machine

/-- Write Z and N, nothing else. -/
def setZN (z n : Bool) (s : State) : State := { s with z := z, n := n }

/-- Write C, nothing else (R29: SHL and SHR alone do so). -/
def setC (c : Bool) (s : State) : State := { s with c := c }

/-- `bool(A = 0)` (R27). -/
def zeroOf (a : Byte) : Bool := a == 0#8

/-- `A[7]` (R28). -/
def negativeOf (a : Byte) : Bool := a.getLsbD 7

/-- `UpdateZN()` (R12, R94): Z and N from the current A. -/
def updateZN (s : State) : State := setZN (zeroOf s.a) (negativeOf s.a) s

/-- The bit SHL moves into C: `A[7]` before the shift (R127). -/
def shlCarry (a : Byte) : Bool := a.getLsbD 7

/-- The bit SHR moves into C: `A[0]` before the shift (R128). -/
def shrCarry (a : Byte) : Bool := a.getLsbD 0

/-- Z and N agree with A, as after every completed step (R30). -/
def State.flagsAgree (s : State) : Prop := s.z = zeroOf s.a ∧ s.n = negativeOf s.a

end Sys2Proof.Machine
end

