-- ==== Sys2Proof/Machine/Ops.lean ====
section
/-! DEFINITION. The named operations over memory, registers, the stack, the display and the host's
channels, taking a halt, and interrupt entry with its return. -/

namespace Sys2Proof.Machine

/-! ## Memory (spec/20_memory.md R53) -/

/-- The byte at key `k` of the cell list. -/
def Memory.lookup (k : Nat) : Memory → Byte
  | [] => Memory.unlisted
  | (j, v) :: rest => if j = k then v else Memory.lookup k rest

/-- The cell list with no entry at key `k`. -/
def Memory.erase (k : Nat) (m : Memory) : Memory := m.filter fun cell => cell.1 != k

/-- The cell list with an entry `v` at key `k`, in its place by address. -/
def Memory.insert (k : Nat) (v : Byte) : Memory → Memory
  | [] => [(k, v)]
  | (j, w) :: rest => if k < j then (k, v) :: (j, w) :: rest else (j, w) :: Memory.insert k v rest

/-- The cell list with `v` at key `k`: an entry that would equal `unlisted` is left out. -/
def Memory.put (k : Nat) (v : Byte) (m : Memory) : Memory :=
  if v = Memory.unlisted then m.erase k else (m.erase k).insert k v

/-- `MemRead(addr, 1)` (R11, R53): every address of a byte exists (R59). -/
def Memory.read (m : Memory) (addr : Byte) : Byte := Memory.lookup addr.toNat m

/-- `MemWrite(addr, 1, v)` (R11, R53): it changes that one cell. -/
def Memory.write (m : Memory) (addr v : Byte) : Memory := Memory.put addr.toNat v m

/-! ## Register and field updates, one field each -/

def setMem (m : Memory) (s : State) : State := { s with mem := m }
def setA (v : Byte) (s : State) : State := { s with a := v }
def setSp (v : Byte) (s : State) : State := { s with sp := v }
def setPc (v : Fin 257) (s : State) : State := { s with pc := v }
def setDisplayMode (m : DisplayMode) (s : State) : State := { s with displayMode := m }
def setCursor (x : Fin 16) (y : Fin 4) (s : State) : State := { s with cursorX := x, cursorY := y }
def setScroll (v : Fin 4) (s : State) : State := { s with scrollOffset := v }
def setText (t : TextGrid) (s : State) : State := { s with text := t }
def setGfx (g : GfxGrid) (s : State) : State := { s with gfx := g }
def setInWait (w : InWait) (s : State) : State := { s with inWait := w }
def setHostInput (q : List (Option Byte)) (s : State) : State := { s with hostInput := q }
def setHostOutput (q : List Byte) (s : State) : State := { s with hostOutput := q }
def setInterruptEnabled (e : Bool) (s : State) : State := { s with interruptEnabled := e }
def setInterruptVector (v : Byte) (s : State) : State := { s with interruptVector := v }
/-- `halted` and `halt_reason`, which are always written together (R11, R32). -/
def setHalt (h : Bool) (r : HaltReason) (s : State) : State := { s with halted := h, haltReason := r }

/-! ## The program counter (spec/10_state.md R25, R26) -/

/-- END, one past the last cell (R25). -/
def pcEnd : Fin 257 := 256

/-- A byte as a program counter value: every computed target is one (R25). -/
def pcOfByte (t : Byte) : Fin 257 := ⟨t.toNat, Nat.lt_succ_of_lt t.isLt⟩

/-- The address a program counter value stands for: none for END (R25). -/
def pcAddr? (p : Fin 257) : Option Byte := if p.val < 256 then some (BitVec.ofNat 8 p.val) else none

/-- The sequential advance: 255 goes to END, and it never wraps (R25, R90). -/
def pcNext (p : Fin 257) : Fin 257 := if h : p.val < 256 then ⟨p.val + 1, Nat.succ_lt_succ h⟩ else p

/-- `PC <- PC + 1` (R90, R110, R141). -/
def advance (s : State) : State := setPc (pcNext s.pc) s

/-- `PC <- t` for a computed target (R25). -/
def jumpTo (t : Byte) (s : State) : State := setPc (pcOfByte t) s

/-! ## The end of a step -/

/-- `raise Halt(reason)` (R11): `halt_reason` is written only when `halted` goes from 0 to 1 (R32).
This is how every fault, and HALT, stops the machine (60_exceptions.md R231). -/
def raiseHalt (r : HaltReason) (s : State) : State := if s.halted then s else setHalt true r s

/-- An execute phase that came to its end: the step ends with `UpdateZN()` (R94, R96, R99). -/
def endStep (s : State) : Host.Outcome State Fault Refusal := .next (updateZN s)

/-- An execute phase that raised a halt: the rest is skipped, `UpdateZN()` still runs (R96; D6). -/
def haltStep (r : HaltReason) (s : State) : Host.Outcome State Fault Refusal := endStep (raiseHalt r s)

/-- The code of a halt reason (R32). -/
def HaltReason.code : HaltReason → BitVec 3
  | .none => 0
  | .haltInstruction => 1
  | .memoryOutOfRange => 2
  | .stackOverflow => 3
  | .stackUnderflow => 4
  | .illegalInstruction => 5

/-- The one-bit code of a display mode (R40). -/
def DisplayMode.code : DisplayMode → BitVec 1
  | .text => 0
  | .graphics => 1

/-! ## The stack (spec/20_memory.md R50, R51) -/

/-- `Push(v)`: at SP = 0 nothing is pushed and the halt reason comes back (R50). -/
def push (v : Byte) (s : State) : Except HaltReason State :=
  if s.sp = 0#8 then .error .stackOverflow
  else .ok (setMem (s.mem.write (s.sp - 1#8) v) (setSp (s.sp - 1#8) s))

/-- `Pop()`: at SP = 0xFF nothing is popped and the halt reason comes back (R51). -/
def pop (s : State) : Except HaltReason (Byte × State) :=
  if s.sp = 255#8 then .error .stackUnderflow
  else .ok (s.mem.read s.sp, setSp (s.sp + 1#8) s)

/-! ## Interrupt entry and the return (spec/60_exceptions.md R234 to R238) -/

/-- `InterruptEntry()` (R236): the one way control is taken from a program. It is no step: no flag
changes, nothing but PC is saved, and the enable stays as it was. `hostCall` makes the request between
steps only (R234). -/
def interruptEntry (s : State) : State :=
  if s.halted || !s.interruptEnabled then s
  else
    match pcAddr? s.pc with
    | none => raiseHalt .memoryOutOfRange s
    | some p =>
      match push p s with
      | .error r => raiseHalt r s
      | .ok s' => jumpTo (s'.mem.read s'.interruptVector) s'

/-- `PC <- Pop()`: the return from a call and from an interrupt handler alike (R144, R237). -/
def returnFromStack (s : State) : Except HaltReason State :=
  match pop s with
  | .error r => .error r
  | .ok (t, s') => .ok (jumpTo t s')

/-! ## The display (spec/44_io_display.md R162 to R168) -/

/-- `text[y][x] <- v`. -/
def TextGrid.put (t : TextGrid) (y : Fin 4) (x : Fin 16) (v : Byte) : TextGrid :=
  Vector.set t y.val (Vector.set (t.get y) x.val v x.isLt) y.isLt

/-- The cell `text[y][x]` (R38). -/
def TextGrid.cell (t : TextGrid) (y : Fin 4) (x : Fin 16) : Byte := (t.get y).get x

/-- `gfx[y][x] <- 1`. -/
def GfxGrid.light (g : GfxGrid) (y x : Fin 32) : GfxGrid :=
  Vector.set g y.val (Vector.set (g.get y) x.val true x.isLt) y.isLt

/-- The pixel `gfx[y][x]` (R39). -/
def GfxGrid.pixel (g : GfxGrid) (y x : Fin 32) : Bool := (g.get y).get x

/-- The column the cursor moves to: it wraps at 16 (R163). -/
def cursorNextX (x : Fin 16) : Fin 16 := ⟨(x.val + 1) % 16, Nat.mod_lt _ (by decide)⟩

/-- The row the cursor moves to: the next one when the column wraps, and it wraps at 4 (R163). -/
def cursorNextY (x : Fin 16) (y : Fin 4) : Fin 4 :=
  if x.val + 1 = 16 then ⟨(y.val + 1) % 4, Nat.mod_lt _ (by decide)⟩ else y

/-- `A & 0x0F`, the column CURS takes (R164). -/
def cursorXOf (a : Byte) : Fin 16 := ⟨a.toNat % 16, Nat.mod_lt _ (by decide)⟩

/-- `(A >> 4) & 0x03`, the row CURS takes (R164). -/
def cursorYOf (a : Byte) : Fin 4 := ⟨a.toNat / 16 % 4, Nat.mod_lt _ (by decide)⟩

/-- `A & 0x1F`, the column GPIX takes (R167). -/
def pixelXOf (a : Byte) : Fin 32 := ⟨a.toNat % 32, Nat.mod_lt _ (by decide)⟩

/-- `(A >> 5) & 0x1F`, the row GPIX takes: 0..7 (R167). -/
def pixelYOf (a : Byte) : Fin 32 := ⟨a.toNat / 32 % 32, Nat.mod_lt _ (by decide)⟩

/-- `(scroll_offset + A) mod 4` (R168). -/
def scrollBy (o : Fin 4) (a : Byte) : Fin 4 := ⟨(o.val + a.toNat) % 4, Nat.mod_lt _ (by decide)⟩

/-! ## The host's channels (spec/40_execution_cycle.md R97, spec/44_io_display.md R160, R161) -/

/-- The value IN takes from an answer: 0x00 for `none` (R160). -/
def answerValue : Option Byte → Byte
  | none => 0#8
  | some v => v

/-- IN takes an answer: `A <- inp`, or 0x00 for `none` (R160). -/
def takeAnswer (inp : Option Byte) (s : State) : State := setA (answerValue inp) s

/-- The answer a character makes: its code modulo 256 (R160; D14). -/
def answerOfChar (ch : Char) : Option Byte := some (BitVec.ofNat 8 ch.toNat)

/-- `out <- out ++ [v]` (R96, R161). -/
def emit (v : Byte) (s : State) : State := setHostOutput (s.hostOutput ++ [v]) s

end Sys2Proof.Machine
end

