-- ==== Sys2Proof/Machine/Operands.lean ====
section
/-! DEFINITION. Every operand form of the spec (spec/30_encoding.md R72, R75). -/

namespace Sys2Proof.Machine

/-- The direct address `zext_8(nib)`, 0..15 (R75, R120). -/
def directAddr (d : Nibble) : Byte := d.setWidth 8

/-- The operand of ADD, SUB, AND, OR and XOR: `MemRead(zext_8(nib), 1)` (R120). -/
def readDirect (d : Nibble) (s : State) : Byte := s.mem.read (directAddr d)

/-- The address of the second byte, which the execute phase reads at PC: none when PC = END
(R93, R110, R140 to R143; D2). -/
def operandAddr? (s : State) : Option Byte := pcAddr? s.pc

/-- `(PC + sext_8(off)) mod 256`, measured from the offset byte's own address `p` (R75, R140). -/
def relTarget (p off : Byte) : Byte := BitVec.ofInt 8 ((p.toNat : Int) + off.toInt)

/-- The CALL target: the 12-bit value `(nib << 8) | t`, of which the core keeps the low 8 bits
(R75, R143; D8). -/
def callTarget (h : Nibble) (t : Byte) : Byte := (h ++ t : BitVec 12).setWidth 8

/-- The return address CALL pushes: `(PC + 1) mod 256` (R143). -/
def returnAddr (p : Byte) : Byte := p + 1#8

end Sys2Proof.Machine
end

