-- ==== Sys2Proof/Machine/Alu.lean ====
section
/-! DEFINITION. The ALU instructions (spec/42_alu.md). -/

namespace Sys2Proof.Machine

/-- A takes `v`, and the step ends: what every ALU instruction does with its result (R120). -/
def writeAcc (v : Byte) (s : State) : Host.Outcome State Fault Refusal := endStep (setA v s)

/-- ADD (R121): `(A + m) mod 256`. -/
def execAdd (d : Nibble) (s : State) : Host.Outcome State Fault Refusal :=
  writeAcc (s.a + readDirect d s) s

/-- SUB (R122): `(A - m) mod 256`. -/
def execSub (d : Nibble) (s : State) : Host.Outcome State Fault Refusal :=
  writeAcc (s.a - readDirect d s) s

/-- AND (R123). -/
def execAnd (d : Nibble) (s : State) : Host.Outcome State Fault Refusal :=
  writeAcc (s.a &&& readDirect d s) s

/-- OR (R124). -/
def execOr (d : Nibble) (s : State) : Host.Outcome State Fault Refusal :=
  writeAcc (s.a ||| readDirect d s) s

/-- XOR (R125). -/
def execXor (d : Nibble) (s : State) : Host.Outcome State Fault Refusal :=
  writeAcc (s.a ^^^ readDirect d s) s

/-- NOT (R126). -/
def execNot (s : State) : Host.Outcome State Fault Refusal := writeAcc (~~~s.a) s

/-- SHL (R127): C takes the old bit 7. -/
def execShl (s : State) : Host.Outcome State Fault Refusal :=
  writeAcc (s.a <<< 1) (setC (shlCarry s.a) s)

/-- SHR (R128): logical, C takes the old bit 0. -/
def execShr (s : State) : Host.Outcome State Fault Refusal :=
  writeAcc (s.a >>> 1) (setC (shrCarry s.a) s)

end Sys2Proof.Machine
end

