-- ==== Sys2Proof/Machine/Control.lean ====
section
/-! DEFINITION. The control-transfer instructions (spec/43_control.md) and the illegal bytes
(spec/30_encoding.md R78). -/

namespace Sys2Proof.Machine

/-- A relative jump that is taken or not: the operand byte's absence faults either way (R140 to R142;
D2), and a jump not taken skips the offset byte. -/
def branch (taken : Bool) (s : State) : Host.Outcome State Fault Refusal :=
  match operandAddr? s with
  | none => haltStep .memoryOutOfRange s
  | some p =>
    if taken then endStep (jumpTo (relTarget p (s.mem.read p)) s) else endStep (advance s)

/-- JMP (R140). -/
def execJmp (s : State) : Host.Outcome State Fault Refusal := branch true s

/-- JZ (R141): reads Z as the previous step left it. -/
def execJz (s : State) : Host.Outcome State Fault Refusal := branch s.z s

/-- JNZ (R142): reads Z as the previous step left it. -/
def execJnz (s : State) : Host.Outcome State Fault Refusal := branch (!s.z) s

/-- CALL (R143): the push comes before the target byte is read, so the push may rewrite it (R63). -/
def execCall (h : Nibble) (s : State) : Host.Outcome State Fault Refusal :=
  match operandAddr? s with
  | none => haltStep .memoryOutOfRange s
  | some p =>
    match push (returnAddr p) s with
    | .error r => haltStep r s
    | .ok s' => endStep (jumpTo (callTarget h (s'.mem.read p)) s')

/-- RET (R144), which is also the return from an interrupt (R237). -/
def execRet (s : State) : Host.Outcome State Fault Refusal :=
  match returnFromStack s with
  | .error r => haltStep r s
  | .ok s' => endStep s'

/-- HALT (R145). -/
def execHalt (s : State) : Host.Outcome State Fault Refusal := haltStep .haltInstruction s

/-- The illegal byte 0xF9 (R78; D5). -/
def execIllegalF9 (s : State) : Host.Outcome State Fault Refusal := haltStep .illegalInstruction s

/-- The illegal bytes 0xFA and 0xFB (R78; D5): their last bit has no effect. -/
def execIllegalFA (_x : BitVec 1) (s : State) : Host.Outcome State Fault Refusal :=
  haltStep .illegalInstruction s

/-- The illegal bytes 0xFC to 0xFF (R78; D5): their last two bits have no effect. -/
def execIllegalFC (_x : BitVec 2) (s : State) : Host.Outcome State Fault Refusal :=
  haltStep .illegalInstruction s

end Sys2Proof.Machine
end

