-- ==== Sys2Proof/Machine/Display.lean ====
section
/-! DEFINITION. The I/O and display instructions (spec/44_io_display.md). -/

namespace Sys2Proof.Machine

/-- IN (R160): takes the host's oldest answer. While there is none the instruction waits and no
`UpdateZN()` runs (R97; D14, log 2). A step tests for this before its fetch (`cycle`), so the wait begun
here is that of an `execute(0xF1)`. -/
def execIn (s : State) : Host.Outcome State Fault Refusal :=
  match s.hostInput with
  | [] => .next (setInWait .execute s)
  | inp :: rest => endStep (takeAnswer inp (setHostInput rest s))

/-- OUT (R161). -/
def execOut (s : State) : Host.Outcome State Fault Refusal := endStep (emit s.a s)

/-- DISP (R163): in graphics mode neither a write nor a cursor move (D9). -/
def execDisp (s : State) : Host.Outcome State Fault Refusal :=
  match s.displayMode with
  | .text =>
    endStep (setCursor (cursorNextX s.cursorX) (cursorNextY s.cursorX s.cursorY)
      (setText (TextGrid.put s.text s.cursorY s.cursorX s.a) s))
  | .graphics => endStep s

/-- CURS (R164). -/
def execCurs (s : State) : Host.Outcome State Fault Refusal :=
  endStep (setCursor (cursorXOf s.a) (cursorYOf s.a) s)

/-- CLR (R165): the grid of the current mode, and the cursor home in both modes. -/
def execClr (s : State) : Host.Outcome State Fault Refusal :=
  match s.displayMode with
  | .text => endStep (setCursor 0 0 (setText blankText s))
  | .graphics => endStep (setCursor 0 0 (setGfx blankGfx s))

/-- GMODE (R166). -/
def execGmode (s : State) : Host.Outcome State Fault Refusal :=
  endStep (setDisplayMode (if s.a ≠ 0#8 then .graphics else .text) s)

/-- GPIX (R167): in either mode (D11). -/
def execGpix (s : State) : Host.Outcome State Fault Refusal :=
  endStep (setGfx (GfxGrid.light s.gfx (pixelYOf s.a) (pixelXOf s.a)) s)

/-- SCROLL (R168): text mode only. -/
def execScroll (s : State) : Host.Outcome State Fault Refusal :=
  match s.displayMode with
  | .text => endStep (setScroll (scrollBy s.scrollOffset s.a) s)
  | .graphics => endStep s

end Sys2Proof.Machine
end

