-- ==== Sys2Proof/Machine/Transfer.lean ====
section
/-! DEFINITION. LOAD and STORE (spec/41_load_store.md). A meaning is the execute phase of its rule,
from the PC after the fetch, followed by the step's `UpdateZN()` (R99; log 11). -/

namespace Sys2Proof.Machine

/-- LOAD (R110). -/
def execLoad (s : State) : Host.Outcome State Fault Refusal :=
  match operandAddr? s with
  | none => haltStep .memoryOutOfRange s
  | some p => endStep (advance (setA (s.mem.read p) s))

/-- STORE (R111). -/
def execStore (d : Nibble) (s : State) : Host.Outcome State Fault Refusal :=
  endStep (setMem (s.mem.write (directAddr d) s.a) s)

end Sys2Proof.Machine
end

