-- ==== Sys2Proof/Machine/Dispatch.lean ====
section
/-! DEFINITION. One arm per instruction: the execute phase and `UpdateZN()` of the step, that is the
body of the host call `execute(b)` (spec/40_execution_cycle.md R93, R99; log 11). -/

namespace Sys2Proof.Machine

def exec (i : Instr) (s : State) : Host.Outcome State Fault Refusal :=
  match i with
  | .load => Sys2Proof.Machine.execLoad s
  | .store d => Sys2Proof.Machine.execStore d s
  | .add d => Sys2Proof.Machine.execAdd d s
  | .sub d => Sys2Proof.Machine.execSub d s
  | .and d => Sys2Proof.Machine.execAnd d s
  | .or d => Sys2Proof.Machine.execOr d s
  | .xor d => Sys2Proof.Machine.execXor d s
  | .not => Sys2Proof.Machine.execNot s
  | .shl => Sys2Proof.Machine.execShl s
  | .shr => Sys2Proof.Machine.execShr s
  | .jmp => Sys2Proof.Machine.execJmp s
  | .jz => Sys2Proof.Machine.execJz s
  | .jnz => Sys2Proof.Machine.execJnz s
  | .call h => Sys2Proof.Machine.execCall h s
  | .ret => Sys2Proof.Machine.execRet s
  | .halt => Sys2Proof.Machine.execHalt s
  | .inp => Sys2Proof.Machine.execIn s
  | .out => Sys2Proof.Machine.execOut s
  | .disp => Sys2Proof.Machine.execDisp s
  | .curs => Sys2Proof.Machine.execCurs s
  | .clr => Sys2Proof.Machine.execClr s
  | .gmode => Sys2Proof.Machine.execGmode s
  | .gpix => Sys2Proof.Machine.execGpix s
  | .scroll => Sys2Proof.Machine.execScroll s
  | .illegalF9 => Sys2Proof.Machine.execIllegalF9 s
  | .illegalFA x => Sys2Proof.Machine.execIllegalFA x s
  | .illegalFC x => Sys2Proof.Machine.execIllegalFC x s

end Sys2Proof.Machine
end

