-- ==== Sys2Proof/Machine/Cycle.lean ====
section
/-! DEFINITION. The fetch-decode-execute cycle (spec/40_execution_cycle.md R90 to R97), which
Step.lean calls. -/

namespace Sys2Proof.Machine

/-- The instruction at PC: none when PC = END (R90 to R92). -/
def fetched? (s : State) : Option Instr := (pcAddr? s.pc).map fun p => decodeFirst (s.mem.read p)

/-- An IN has begun and waits for the host's answer (R97, R246). -/
def State.waiting (s : State) : Bool := s.inWait != .none

/-- The next step is an IN for which the host has given no answer: it cannot complete (R97). -/
def State.needsAnswer (s : State) : Bool := fetched? s == some .inp && s.hostInput.isEmpty

/-- One step (R96). A halted machine has none and a waiting IN has not completed one: both keep the
state as it is (R95, R97; log 2, log 4). A step that needs an answer begins the wait, and all else stays
as before the fetch. A fetch at END halts (R91). -/
def cycle (s : State) : Host.Outcome State Fault Refusal :=
  if s.halted || s.waiting then .next s
  else if s.needsAnswer then .next (setInWait .step s)
  else
    match fetched? s with
    | none => haltStep .memoryOutOfRange s
    | some i => exec i (advance s)

/-- Where `withFetchWord` stores: PC, or the entry point when PC is at END (R261; log 20). -/
def fetchPc (s : State) : Fin 257 := if s.pc.val < 256 then s.pc else 0

/-- Store an instruction's two bytes where the next step fetches, and let it fetch: a halted or waiting
machine does not, and END holds no byte (log 20). The second byte has no cell when the first is at 255. -/
def placeWord (b1 b2 : Byte) (s : State) : State :=
  let p := fetchPc s
  let addr := BitVec.ofNat 8 p.val
  let m := s.mem.write addr b1
  let s' := setInWait .none (setPc p (setMem (if p.val + 1 < 256 then m.write (addr + 1) b2 else m) s))
  if s.halted then setHalt false .none s' else s'

end Sys2Proof.Machine
end

