-- ==== Sys2Proof/Machine/Step.lean ====
section
/-! DEFINITION. One step of the machine, and how an instruction is placed for the next step. -/

namespace Sys2Proof.Machine

/-- One step (spec/40_execution_cycle.md R96). -/
def step (s : State) : Host.Outcome State Fault Refusal := cycle s

/-- The state with an opcode-table word stored where `step` fetches its next instruction. -/
def State.withFetchWord (s : State) (nbits w : Nat) : State :=
  placeWord (tableBytes nbits w).1 (tableBytes nbits w).2 s

end Sys2Proof.Machine
end

