-- ==== Sys2Proof/Machine/AsmText.lean ====
section
/-! DEFINITION. The assembler's text: lines, tokens, names and numbers (spec/45_assembler.md R181 to
R184; D28, D30). A text is its list of characters (log 24). -/

namespace Sys2Proof.Asm

/-- A token: a run of characters with no space and no tab (R182). -/
abbrev Token := List Char

/-- The text split at each line feed (R181). -/
def splitLines : List Char → List (List Char)
  | [] => [[]]
  | ch :: rest =>
    match splitLines rest with
    | [] => [[ch]]
    | l :: ls => if ch = '\n' then [] :: l :: ls else (ch :: l) :: ls

/-- The line without its comment, which runs from the first `;` (R181). -/
def stripComment (l : List Char) : List Char := l.takeWhile fun ch => ch ≠ ';'

/-- What trimming removes: spaces, tabs and carriage returns (R181). -/
def isTrimmed (ch : Char) : Bool := ch = ' ' || ch = '\t' || ch = '\r'

/-- The line without leading and trailing white space (R181). -/
def trim (l : List Char) : List Char := ((l.dropWhile isTrimmed).reverse.dropWhile isTrimmed).reverse

/-- What separates tokens: spaces and tabs, no comma (R182). -/
def isSeparator (ch : Char) : Bool := ch = ' ' || ch = '\t'

/-- The tokens of a line; `cur` is the token being read, last character first. -/
def tokensFrom (cur : List Char) : List Char → List Token
  | [] => if cur.isEmpty then [] else [cur.reverse]
  | ch :: rest =>
    if isSeparator ch then
      if cur.isEmpty then tokensFrom [] rest else cur.reverse :: tokensFrom [] rest
    else tokensFrom (ch :: cur) rest

/-- A prepared line split into tokens (R182). -/
def tokens (l : List Char) : List Token := tokensFrom [] l

/-- A prepared line: its number in the text, counted from 1 over all lines (log 21), and its tokens. -/
structure Line where
  num : Nat
  toks : List Token
  deriving DecidableEq, Repr

/-- Line preparation (R181): comments stripped, trimmed, blank lines skipped. -/
def prepareFrom (num : Nat) : List (List Char) → List Line
  | [] => []
  | l :: ls =>
    let p := trim (stripComment l)
    if p.isEmpty then prepareFrom (num + 1) ls else ⟨num, tokens p⟩ :: prepareFrom (num + 1) ls

/-- The prepared lines of a text (R181, R182). -/
def prepare (text : List Char) : List Line := prepareFrom 1 (splitLines text)

/-- `[A-Za-z_]` (R183). -/
def isNameStart (ch : Char) : Bool := ch.isAlpha || ch = '_'

/-- `[A-Za-z0-9_]` (R183). -/
def isNameChar (ch : Char) : Bool := ch.isAlphanum || ch = '_'

/-- A label, macro or parameter name (R183). -/
def isName : Token → Bool
  | [] => false
  | ch :: rest => isNameStart ch && rest.all isNameChar

/-- The value of a hexadecimal digit of either case, and of a decimal one (R184). -/
def hexDigit? (ch : Char) : Option Nat :=
  if '0' ≤ ch ∧ ch ≤ '9' then some (ch.toNat - '0'.toNat)
  else if 'a' ≤ ch ∧ ch ≤ 'f' then some (ch.toNat - 'a'.toNat + 10)
  else if 'A' ≤ ch ∧ ch ≤ 'F' then some (ch.toNat - 'A'.toNat + 10)
  else none

/-- The value of a decimal digit (R184). -/
def decDigit? (ch : Char) : Option Nat :=
  if '0' ≤ ch ∧ ch ≤ '9' then some (ch.toNat - '0'.toNat) else none

/-- The number the digits stand for in a base, on top of `acc`: none where one is no digit. -/
def digitsFrom (base : Nat) (digit? : Char → Option Nat) (acc : Nat) : List Char → Option Nat
  | [] => some acc
  | ch :: rest =>
    match digit? ch with
    | some v => digitsFrom base digit? (acc * base + v) rest
    | none => none

/-- A number: `[0-9]+` or `0x[0-9A-Fa-f]+`, the prefix in lower case (R184). -/
def parseNumber : Token → Option Nat
  | [] => none
  | '0' :: 'x' :: ds => if ds.isEmpty then none else digitsFrom 16 hexDigit? 0 ds
  | ds => digitsFrom 10 decDigit? 0 ds

/-- "A token that starts with a digit" (R184). -/
def startsWithDigit : Token → Bool
  | [] => false
  | ch :: _ => ch.isDigit

/-- The token ends in `:` (R185, R187). -/
def endsInColon (t : Token) : Bool := t.getLast? == some ':'

/-- `%macro` and `%endmacro` (R185). -/
def macroWord : Token := "%macro".toList
def endmacroWord : Token := "%endmacro".toList

end Sys2Proof.Asm
end

