-- ==== Sys2Proof/Machine/AsmPassOne.lean ====
section
/-! DEFINITION. Pass 1 of the assembler: the item list and the macro table (spec/45_assembler.md
R185 to R187). -/

namespace Sys2Proof.Asm

/-- The kinds of AssemblyError (R187, R188, R189, R190, R192, R193, R201). -/
inductive ErrorKind where
  | macroWithoutName
  | badName
  | duplicateParameter
  | duplicateMacro
  | nestedDefinition
  | strayEndmacro
  | endmacroWithTokens
  | unterminatedDefinition
  | badLabelName
  | duplicateLabel
  | labelNotAlone
  | macroArgumentCount
  | nestedInvocation
  | labelOrDirectiveInBody
  | unknownMnemonic
  | operandCount
  | malformedNumber
  | malformedOperand
  | undefinedLabel
  | operandOutOfRange
  deriving DecidableEq, Repr

/-- "The error names its kind and the source line" (R201). -/
structure AssemblyError where
  line : Nat
  kind : ErrorKind
  deriving DecidableEq, Repr

/-- An entry of the macro table: name, ordered parameters, ordered body lines (R180, R185). -/
structure MacroDef where
  name : Token
  params : List Token
  body : List (List Token)
  deriving DecidableEq, Repr

/-- An item of pass 1's product (R186). -/
inductive Item where
  | label (name : Token)
  | line (num : Nat) (toks : List Token)
  deriving DecidableEq, Repr

/-- Pass 1 as it reads the lines: the items and macros so far, and the definition that is open. -/
structure PassOne where
  items : List Item
  macros : List MacroDef
  current : Option MacroDef
  deriving DecidableEq, Repr

/-- The macro of a name. -/
def findMacro (ms : List MacroDef) (t : Token) : Option MacroDef := ms.find? fun m => m.name == t

/-- The tokens after `%macro`: the definition they open, or the structural error (R187). -/
def openMacro (ms : List MacroDef) : List Token → Except ErrorKind MacroDef
  | [] => .error .macroWithoutName
  | name :: params =>
    if !(name :: params).all isName then .error .badName
    else if !decide params.Nodup then .error .duplicateParameter
    else if (findMacro ms name).isSome then .error .duplicateMacro
    else .ok ⟨name, params, []⟩

/-- The name a one-token line ending in `:` defines, or the structural error (R185, R187). -/
def labelName (items : List Item) (t : Token) : Except ErrorKind Token :=
  let name := t.dropLast
  if !isName name then .error .badLabelName
  else if Item.label name ∈ items then .error .duplicateLabel
  else .ok name

/-- One prepared line outside a definition (R185, R187). -/
def lineOutside (st : PassOne) (l : Line) : Except ErrorKind PassOne :=
  match l.toks with
  | [] => .ok st
  | t :: rest =>
    if t = macroWord then
      match openMacro st.macros rest with
      | .error e => .error e
      | .ok d => .ok { st with current := some d }
    else if t = endmacroWord then
      .error (if rest.isEmpty then .strayEndmacro else .endmacroWithTokens)
    else if endsInColon t then
      if rest.isEmpty then
        match labelName st.items t with
        | .error e => .error e
        | .ok name => .ok { st with items := st.items ++ [.label name] }
      else .error .labelNotAlone
    else .ok { st with items := st.items ++ [.line l.num l.toks] }

/-- One prepared line inside the open definition `d`: a body line is stored unparsed (R185, R187). -/
def lineInside (st : PassOne) (d : MacroDef) (l : Line) : Except ErrorKind PassOne :=
  match l.toks with
  | [] => .ok st
  | t :: rest =>
    if t = macroWord then .error .nestedDefinition
    else if t = endmacroWord then
      if rest.isEmpty then .ok { st with macros := st.macros ++ [d], current := none }
      else .error .endmacroWithTokens
    else .ok { st with current := some { d with body := d.body ++ [l.toks] } }

/-- One prepared line. -/
def passOneLine (st : PassOne) (l : Line) : Except ErrorKind PassOne :=
  match st.current with
  | none => lineOutside st l
  | some d => lineInside st d l

/-- Pass 1 over the prepared lines in order: the first line with an error fails the call (R187, R201). -/
def passOneFrom (st : PassOne) : List Line → Except AssemblyError PassOne
  | [] => .ok st
  | l :: ls =>
    match passOneLine st l with
    | .error e => .error ⟨l.num, e⟩
    | .ok st' => passOneFrom st' ls

/-- Pass 1 of a text (R185): a definition still open at the end is an error of the text's last line
(R187; log 23). -/
def passOne (text : List Char) : Except AssemblyError PassOne :=
  match passOneFrom ⟨[], [], none⟩ (prepare text) with
  | .error e => .error e
  | .ok st =>
    if st.current.isSome then .error ⟨(splitLines text).length, .unterminatedDefinition⟩ else .ok st

end Sys2Proof.Asm
end

