-- ==== Sys2Proof/Machine/AsmPassTwo.lean ====
section
/-! DEFINITION. Pass 2 of the assembler: macro expansion, addresses, operand resolution and encoding
(spec/45_assembler.md R188 to R200). -/

namespace Sys2Proof.Asm

/-- What pass 2 encodes: label marks, instruction lines, and lines whose expansion failed. -/
inductive Expanded where
  | label (name : Token)
  | code (num : Nat) (toks : List Token)
  | broken (err : AssemblyError)
  deriving DecidableEq, Repr

/-! ## Macro expansion (R188) -/

/-- Every token equal to a parameter replaced by its argument, all at once (R188). -/
def substitute (env : List (Token × Token)) (toks : List Token) : List Token :=
  toks.map fun t => (env.lookup t).getD t

/-- A body line after substitution: one instruction line, unless it is a directive, a label line or an
invocation (R188; D29). -/
def expandedLine (ms : List MacroDef) (num : Nat) (toks : List Token) : Expanded :=
  match toks with
  | [] => .code num []
  | t :: rest =>
    if t = macroWord || t = endmacroWord || (rest.isEmpty && endsInColon t) then
      .broken ⟨num, .labelOrDirectiveInBody⟩
    else if (findMacro ms t).isSome then .broken ⟨num, .nestedInvocation⟩
    else .code num toks

/-- An item expanded: the macro table is looked up first, one level deep (R188). Every line of an
expansion has the line number of its invocation (log 21). -/
def expandItem (ms : List MacroDef) : Item → List Expanded
  | .label name => [.label name]
  | .line num toks =>
    match toks with
    | [] => []
    | t :: args =>
      match findMacro ms t with
      | none => [.code num toks]
      | some m =>
        if args.length ≠ m.params.length then [.broken ⟨num, .macroArgumentCount⟩]
        else m.body.map fun L => expandedLine ms num (substitute (m.params.zip args) L)

/-! ## Mnemonics (R189, R190, R193) -/

/-- How a mnemonic is assembled. -/
inductive AsmOp where
  /-- No operand. -/
  | bare (i : Instr)
  /-- LOAD and its value. -/
  | load
  /-- A direct address in the low nibble. -/
  | direct (f : Nibble → Instr)
  /-- A relative jump and its target. -/
  | jump (i : Instr)
  /-- CALL and its target. -/
  | call

/-- The 24 mnemonics (R189). -/
def mnemonics : List (Token × AsmOp) :=
  [("LOAD".toList, .load), ("STORE".toList, .direct .store), ("ADD".toList, .direct .add),
   ("SUB".toList, .direct .sub), ("AND".toList, .direct .and), ("OR".toList, .direct .or),
   ("XOR".toList, .direct .xor), ("NOT".toList, .bare .not), ("SHL".toList, .bare .shl),
   ("SHR".toList, .bare .shr),
   ("JMP".toList, .jump .jmp), ("JZ".toList, .jump .jz), ("JNZ".toList, .jump .jnz),
   ("CALL".toList, .call), ("RET".toList, .bare .ret), ("HALT".toList, .bare .halt),
   ("IN".toList, .bare .inp), ("OUT".toList, .bare .out), ("DISP".toList, .bare .disp),
   ("CURS".toList, .bare .curs), ("CLR".toList, .bare .clr), ("GMODE".toList, .bare .gmode),
   ("GPIX".toList, .bare .gpix), ("SCROLL".toList, .bare .scroll)]

/-- The mnemonic of a token, case-sensitive (R182, R189). -/
def findMnemonic (t : Token) : Option AsmOp := mnemonics.lookup t

/-- The encoded length (R189). -/
def AsmOp.length : AsmOp → Nat
  | .bare _ | .direct _ => 1
  | .load | .jump _ | .call => 2

/-- How many operand tokens the mnemonic needs (R189, R190). -/
def AsmOp.arity : AsmOp → Nat
  | .bare _ => 0
  | .load | .direct _ | .jump _ | .call => 1

/-- The largest legal operand value (R193; D26). -/
def AsmOp.maxOperand : AsmOp → Nat
  | .bare _ => 0
  | .direct _ => 15
  | .load | .jump _ | .call => 255

/-- The offset byte of a jump at `addr` to `target`, measured from the offset byte (R197; D24). -/
def jumpOffset (addr target : Nat) : Byte := BitVec.ofInt 8 ((target : Int) - ((addr : Int) + 1))

/-- The instruction for operand value `v` at address `addr` (R194 to R198). -/
def AsmOp.code (op : AsmOp) (addr v : Nat) : Code :=
  match op with
  | .bare i => ⟨i, none⟩
  | .load => ⟨.load, some (BitVec.ofNat 8 v)⟩
  | .direct f => ⟨f (BitVec.ofNat 4 v), none⟩
  | .jump i => ⟨i, some (jumpOffset addr v)⟩
  | .call => ⟨.call (BitVec.ofNat 4 (v / 256)), some (BitVec.ofNat 8 v)⟩

/-! ## Addresses (R191) -/

/-- The length an item takes in the output: none where it has no mnemonic to tell it. -/
def Expanded.length? : Expanded → Option Nat
  | .label _ => some 0
  | .code _ [] => some 0
  | .code _ (t :: _) => (findMnemonic t).map AsmOp.length
  | .broken _ => none

/-- The label table (R191): each label's byte address. The address is unknown after an item whose
length is, and then the call fails anyway (log 22). -/
def labelTable (addr : Option Nat) : List Expanded → List (Token × Option Nat)
  | [] => []
  | x :: xs =>
    let rest := labelTable (addr.bind fun p => x.length?.map fun k => p + k) xs
    match x with
    | .label name => (name, addr) :: rest
    | .code _ _ | .broken _ => rest

/-! ## Operands (R192, R193) -/

/-- The value of an operand token: a label's, else a number's (R192). A label of unknown address has
no value. -/
def operandValue (labels : List (Token × Option Nat)) (t : Token) : Except ErrorKind (Option Nat) :=
  match labels.lookup t with
  | some v => .ok v
  | none =>
    match parseNumber t with
    | some v => .ok (some v)
    | none =>
      if isName t then .error .undefinedLabel
      else if startsWithDigit t then .error .malformedNumber
      else .error .malformedOperand

/-- The bytes of a mnemonic with its operand tokens at address `addr` (R190, R192 to R198). -/
def encodeOp (labels : List (Token × Option Nat)) (addr : Nat) (op : AsmOp) (args : List Token) :
    Except ErrorKind (List Byte) :=
  if args.length ≠ op.arity then .error .operandCount
  else
    match args with
    | [] => .ok (encode (op.code addr 0))
    | t :: _ =>
      match operandValue labels t with
      | .error e => .error e
      | .ok none => .ok []
      | .ok (some v) =>
        if v ≤ op.maxOperand then .ok (encode (op.code addr v)) else .error .operandOutOfRange

/-- The bytes of one instruction line at address `addr` (R189 to R198). -/
def encodeLine (labels : List (Token × Option Nat)) (addr : Nat) (toks : List Token) :
    Except ErrorKind (List Byte) :=
  match toks with
  | [] => .ok []
  | t :: args =>
    match findMnemonic t with
    | none => .error .unknownMnemonic
    | some op => encodeOp labels addr op args

/-- The bytes of one item at address `addr`: a label mark has none (R200). -/
def encodeItem (labels : List (Token × Option Nat)) (addr : Nat) :
    Expanded → Except AssemblyError (List Byte)
  | .label _ => .ok []
  | .broken e => .error e
  | .code num toks =>
    match encodeLine labels addr toks with
    | .error e => .error ⟨num, e⟩
    | .ok bs => .ok bs

/-- The bytes of all items from `addr` on, in order; the first item with an error fails the call
(R200, R201). -/
def encodeFrom (labels : List (Token × Option Nat)) (addr : Nat) :
    List Expanded → Except AssemblyError (List Byte)
  | [] => .ok []
  | x :: xs =>
    match encodeItem labels addr x with
    | .error e => .error e
    | .ok bs =>
      match encodeFrom labels (addr + bs.length) xs with
      | .error e => .error e
      | .ok rest => .ok (bs ++ rest)

/-- Pass 2 on the items of pass 1 (R188 to R200). -/
def passTwo (ms : List MacroDef) (items : List Item) : Except AssemblyError (List Byte) :=
  let xs := items.flatMap (expandItem ms)
  encodeFrom (labelTable (some 0) xs) 0 xs

end Sys2Proof.Asm
end

