-- ==== Sys2Proof/Machine/Assembler.lean ====
section
/-! DEFINITION. The two-pass assembler (spec/45_assembler.md R180) and the canonical listing (R205). -/

namespace Sys2Proof.Asm

/-- `assemble(text) -> bytes | AssemblyError` (R180). It keeps no state between calls. -/
def assemble (text : List Char) : Except AssemblyError (List Byte) :=
  match passOne text with
  | .error e => .error e
  | .ok st => passTwo st.macros st.items

/-- `assemble` on a string. -/
def assembleString (text : String) : Except AssemblyError (List Byte) := assemble text.toList

/-! ## The listing (R205) -/

/-- Two lower-case hexadecimal digits. -/
def hexByte (b : Byte) : List Char := [Nat.digitChar (b.toNat / 16), Nat.digitChar (b.toNat % 16)]

/-- A number below 1000 in decimal, with no leading zero. -/
def decimal (v : Nat) : List Char :=
  (if 100 ≤ v then [Nat.digitChar (v / 100)] else []) ++
  (if 10 ≤ v then [Nat.digitChar (v / 10 % 10)] else []) ++ [Nat.digitChar (v % 10)]

/-- The absolute target of a jump at `addr`: `(P + 1 + off) mod 256`. -/
def jumpTarget (addr : Nat) (off : Byte) : Nat := (addr + 1 + off.toNat) % 256

/-- What follows the mnemonic, each operand after a space. -/
def listingOperand (addr : Nat) (c : Code) : List Char :=
  let b2 := c.operand.getD 0
  match c.instr with
  | .load => " 0x".toList ++ hexByte b2
  | .store d | .add d | .sub d | .and d | .or d | .xor d => ' ' :: decimal d.toNat
  | .jmp | .jz | .jnz => ' ' :: decimal (jumpTarget addr b2)
  | .call _ => ' ' :: decimal b2.toNat
  | .illegalF9 | .illegalFA _ | .illegalFC _ => " 0x".toList ++ hexByte (encodeFirst c.instr)
  | .not | .shl | .shr | .ret | .halt => []
  | .inp | .out | .disp | .curs | .clr | .gmode | .gpix | .scroll => []

/-- The canonical text of the instruction at `addr` (R205). -/
def listing (addr : Nat) (c : Code) : List Char := c.instr.mnemonic.toList ++ listingOperand addr c

end Sys2Proof.Asm
end

