-- ==== Sys2Proof/Machine/HostCalls.lean ====
section
/-! DEFINITION. The host's calls (spec/40_execution_cycle.md R98 to R105, spec/60_exceptions.md R235,
R236, spec/70_reset_and_hazards.md R260). Each function says what a call does when it acts; `hostCall` is
the host's one way in, and lets a call act between steps only (R105). The accessors of R104 are the fields
of `State`: a read changes no state. -/

namespace Sys2Proof.Machine

/-- `step()` as a state update (R96). The machine raises no fault and no refusal. -/
def hostStep (s : State) : State :=
  match step s with
  | .next s' => s'
  | .fault _ => s
  | .refused _ => s

/-- `fetch()` (R98): the byte and the state. At END it halts and returns the synthesized 0xF0, with no
`UpdateZN()`. A halted machine keeps its PC (log 15). -/
def hostFetch (s : State) : Byte × State :=
  match pcAddr? s.pc with
  | none => (0xF0, raiseHalt .memoryOutOfRange s)
  | some p => (s.mem.read p, if s.halted then s else advance s)

/-- `execute(b)` (R99): no effect while halted (R95). -/
def hostExecute (b : Byte) (s : State) : State :=
  if s.halted then s
  else
    match exec (decodeFirst b) s with
    | .next s' => s'
    | .fault _ => s
    | .refused _ => s

/-- How `run()` comes out. -/
inductive RunResult where
  /-- It returned the count of steps it performed (R102, R103). -/
  | returned (count : Nat) (s : State)
  /-- It is blocked at an IN the host has not answered, after `count` completed steps, and goes on when the
  answer comes (R97, R102; log 17). -/
  | waiting (count : Nat) (s : State)
  deriving DecidableEq, Repr

/-- The state `run()` is left in. -/
def RunResult.state : RunResult → State
  | .returned _ s => s
  | .waiting _ s => s

/-- The steps `run()` completed. -/
def RunResult.count : RunResult → Nat
  | .returned k _ => k
  | .waiting k _ => k

/-- The loop of `run()` (R102): at most `cap` more steps, `count` done before. A step that needs an answer
begins the wait, which keeps the count (log 17). -/
def runLoop : (cap count : Nat) → State → RunResult
  | 0, count, s => .returned count s
  | cap + 1, count, s =>
    if s.halted then .returned count s
    else if s.waiting then .waiting count s
    else if s.needsAnswer then .waiting count (setInWait (.run count) s)
    else runLoop cap (count + 1) (hostStep s)

/-- `run()` under the cap `RUN_CAP` (R102). It is one call: between its steps the host only answers an IN, or
resets while it waits (log 29). -/
def hostRun (s : State) : RunResult := runLoop Config.runCap 0 s

/-- `MemWrite(i, 1, p[i])` from address `i` on, for the bytes of `p` in order (R100). -/
def writeFrom (i : Nat) : List Byte → Memory → Memory
  | [], m => m
  | v :: p, m => writeFrom (i + 1) p (m.write (BitVec.ofNat 8 i) v)

/-- `load_program(p)` (R100): the first 256 bytes, and nothing but memory is written. The Bool is the
warning to the host that `p` was truncated (R101). -/
def loadProgram (p : List Byte) (s : State) : State × Bool :=
  (setMem (writeFrom 0 (p.take 256) s.mem) s, decide (256 < p.length))

/-- Reset (R260): every field of the state record, and an IN that waits is abandoned. What the host has said
and heard is the host's own, and stays (R43; log 16). -/
def hostReset (s : State) : State :=
  setHostInput s.hostInput (setHostOutput s.hostOutput State.reset)

/-- The boot sequence up to the first step (R263): reset, then load. -/
def boot (p : List Byte) (s : State) : State := (loadProgram p (hostReset s)).1

/-- The waiting IN completed by its answer: that of a step or of `run()` with its fetch, that of an
`execute(0xF1)` without (R96, R97, R99). -/
def completeIn (inp : Option Byte) (s : State) : State :=
  match s.inWait with
  | .execute => updateZN (takeAnswer inp (setInWait .none s))
  | .none | .step | .run _ => updateZN (takeAnswer inp (advance (setInWait .none s)))

/-- `run()` under `cap`, blocked at an IN after `count` steps, goes on when the answer comes: the IN's step
is counted, and the loop runs to its end or to the next wait (R102, R103). -/
def resumeLoop (cap : Nat) (inp : Option Byte) (count : Nat) (s : State) : RunResult :=
  runLoop (cap - (count + 1)) (count + 1) (completeIn inp s)

/-- What the blocked `run()` comes to by an answer, its count included (R103): none where no `run()` is
blocked. -/
def answerReturns (inp : Option Byte) (s : State) : Option RunResult :=
  match s.inWait with
  | .run count => some (resumeLoop Config.runCap inp count s)
  | .none | .step | .execute => none

/-- The host gives an answer for IN (R105). It completes an IN that waits, which ends that wait (R97, R246),
and a `run()` blocked there goes on (R102). Given between steps it is kept for a later IN (log 1). -/
def hostAnswer (inp : Option Byte) (s : State) : State :=
  match s.inWait with
  | .none => setHostInput (s.hostInput ++ [inp]) s
  | .step | .execute => completeIn inp s
  | .run count => (resumeLoop Config.runCap inp count s).state

/-- A call the host makes between steps, "never during one": while an IN waits it does not act
(R105, R246; log 2). After a `fetch()` and before the `execute(b)` of its byte the machine is between steps
in this sense: that an interrupt entry, or another call, may come there is the model's choice (log 29). -/
def betweenSteps (f : State → State) (s : State) : State := if s.waiting then s else f s

/-- One call of the host (the table of R105). -/
inductive HostCall where
  | load (p : List Byte)
  | reset
  | step
  | run
  | fetch
  | execute (b : Byte)
  | answer (inp : Option Byte)
  | setVector (v : Byte)
  | setEnabled (e : Bool)
  | interrupt
  | read
  deriving DecidableEq, Repr

/-- The state a call of the host leaves (R105). Reset and the answer act during the wait of an IN too, and
they alone end it (R246, R260). -/
def hostCall (h : HostCall) (s : State) : State :=
  match h with
  | .load p => betweenSteps (fun s => (loadProgram p s).1) s
  | .reset => hostReset s
  | .step => betweenSteps hostStep s
  | .run => betweenSteps (fun s => (hostRun s).state) s
  | .fetch => betweenSteps (fun s => (hostFetch s).2) s
  | .execute b => betweenSteps (hostExecute b) s
  | .answer inp => hostAnswer inp s
  | .setVector v => betweenSteps (setInterruptVector v) s
  | .setEnabled e => betweenSteps (setInterruptEnabled e) s
  | .interrupt => betweenSteps interruptEntry s
  | .read => s

end Sys2Proof.Machine
end

