-- ==== Sys2Proof/Safety.lean ====
section
/-! DEFINITION. What counts as a good state, a clean stop and the end of a run, in the terms the
statements use (spec/60_exceptions.md R231, spec/70_reset_and_hazards.md R268). -/

namespace Sys2Proof.Machine

/-- "A claim that a program runs cleanly takes `halt_reason ∈ {NONE, HALT_INSTRUCTION}`" (R231). -/
def State.clean (s : State) : Prop := s.haltReason = .none ∨ s.haltReason = .haltInstruction

/-- A fault halt: halted for another reason than HALT (R15, R231). -/
def State.faultHalted (s : State) : Prop := s.halted = true ∧ ¬ s.clean

/-- `halted` is set exactly when a reason is recorded (R31, R32). -/
def State.haltMarked (s : State) : Prop := s.halted = true ↔ s.haltReason ≠ .none

/-- Memory is in its canonical form and a halt has its reason: kept by every call of the host. -/
def State.Coherent (s : State) : Prop := s.mem.wf = true ∧ s.haltMarked

/-- At END, Z and N agree with A: "PC = END can hold only after a completed step, and every completed
step ends with `UpdateZN()`" (R91). Kept by every step. -/
def State.EndAgrees (s : State) : Prop := s.pc = pcEnd → s.flagsAgree

/-- Rows 8..31 of the graphics grid are blank: no instruction sets a pixel there (R167). -/
def State.LowerRowsBlank (s : State) : Prop := ∀ y x : Fin 32, 8 ≤ y.val → GfxGrid.pixel s.gfx y x = false

/-- Z and N are those of A, in the words of R12: `Z <- bool(A = 0); N <- A[7]`. -/
def State.flagsOfA (t : State) : Prop := (t.z = true ↔ t.a.toNat = 0) ∧ (t.n = true ↔ 128 ≤ t.a.toNat)

/-- `t` is `s` halted for the reason `r`, with Z and N those of A, and nothing else changed (R232). -/
def State.haltedFrom (s t : State) (r : HaltReason) : Prop :=
  t.flagsOfA ∧ t = { s with halted := true, haltReason := r, z := t.z, n := t.n }

/-- The display fields are those of `s` (R35 to R39). -/
def State.sameDisplay (s t : State) : Prop :=
  t.displayMode = s.displayMode ∧ t.cursorX = s.cursorX ∧ t.cursorY = s.cursorY ∧
    t.scrollOffset = s.scrollOffset ∧ t.text = s.text ∧ t.gfx = s.gfx

/-- The first byte `b` is an encoding of `i`, whose length is `len` bytes (R70, R72, R77). -/
def encodedAs (i : Instr) (b : Byte) (len : Nat) : Prop := decodeFirst b = i ∧ i.length = len

/-- `Push` of each byte in order: the first refused push gives its halt reason. -/
def pushAll : List Byte → State → Except HaltReason State
  | [], s => .ok s
  | v :: vs, s =>
    match push v s with
    | .error r => .error r
    | .ok s' => pushAll vs s'

/-- `k` times `Pop`: the bytes in the order they came. -/
def popTimes : Nat → State → Except HaltReason (List Byte × State)
  | 0, s => .ok ([], s)
  | k + 1, s =>
    match pop s with
    | .error r => .error r
    | .ok (v, s') =>
      match popTimes k s' with
      | .error r => .error r
      | .ok (vs, s'') => .ok (v :: vs, s'')

/-- `k` steps. -/
def stepTimes : Nat → State → State
  | 0, s => s
  | k + 1, s => stepTimes k (hostStep s)

/-- The calls of the host in order, from one state on. -/
def hostCalls : List HostCall → State → State
  | [], s => s
  | h :: hs, s => hostCalls hs (hostCall h s)

/-- Every state the host can bring a fresh machine into (R105, R260). -/
def State.Reachable (s : State) : Prop := ∃ hs : List HostCall, s = hostCalls hs State.reset

/-- An IN waits only in a running machine that has no answer left, the IN of a step or of `run()` still
stands at PC (R97), and a blocked `run()` has steps left under its cap (R102). Kept by every step and every
call of the host. -/
def State.WaitAtIn (s : State) : Prop :=
  s.waiting = true → s.halted = false ∧ s.hostInput = [] ∧
    (s.inWait ≠ .execute → fetched? s = some .inp) ∧ ∀ count, s.inWait = .run count → count < Config.runCap

/-! ### The end of a run (R268) -/

/-- The host's answers during a run: its answer to the IN that is the `j`-th to wait, or `none` where it
never answers. -/
abbrev Answers := Nat → Option (Option Byte)

/-- A run under way: its state, and how many waiting INs the host has answered. -/
structure Run where
  state : State
  answered : Nat

/-- The machine waits at an IN whose answer the host never gives. -/
def Run.stuck (host : Answers) (r : Run) : Prop := r.state.waiting = true ∧ host r.answered = none

/-- One move of a run: a waiting IN gets its answer where the host gives one, else the machine steps. -/
def Run.move (host : Answers) (r : Run) : Run :=
  if r.state.waiting then
    match host r.answered with
    | none => r
    | some inp => ⟨completeIn inp r.state, r.answered + 1⟩
  else ⟨hostStep r.state, r.answered⟩

/-- The run from the state `s` after `k` moves. -/
def runAfter (host : Answers) (s : State) : Nat → Run
  | 0 => ⟨s, 0⟩
  | k + 1 => (runAfter host s k).move host

/-- R268 "Final": the run comes to `halted = 1`. -/
def State.endsFinal (host : Answers) (s : State) : Prop := ∃ k, (runAfter host s k).state.halted = true

/-- R268 "Waiting": the run comes to an IN whose answer the host never gives. -/
def State.endsWaiting (host : Answers) (s : State) : Prop := ∃ k, (runAfter host s k).stuck host

/-- R268 "Endless": the run goes on forever, and neither halts nor is stuck at an IN. Of two moves one
after the other at least one completes a step. -/
def State.endless (host : Answers) (s : State) : Prop :=
  ∀ k, (runAfter host s k).state.halted = false ∧ ¬ (runAfter host s k).stuck host

end Sys2Proof.Machine
end

