-- ==== Sys2Proof/Certificates/Slice0/Obligations.lean ====
section
/-! DEFINITION. The statements for the provers. A program counter is written by its value: 256 is END,
and `pcOfByte p` has the value `p.toNat`. `d.toNat` of a nibble is a direct address 0..15. -/

open Sys2Proof Sys2Proof.Machine Sys2Proof.Asm

/-! ## Encoding -/

/-- Decoding an encoded well-formed instruction gives it back, whatever bytes follow: no operand bit is
dropped (30_encoding.md sections 1 to 3; LOAD, NOT and the like have no nibble to drop, log 10). -/
def Obligations.DecodeOfEncodeGivesInstructionBack : Prop :=
  ∀ (c : Code) (rest : List Byte), c.wellFormed = true → decode (encode c ++ rest) = .ok (c, rest)

/-- The complete map of the first byte, row by row, with the lengths (R77). -/
def Obligations.FirstByteDecodesByOpcodeMap : Prop :=
  (∀ x : Nibble,
    decodeFirst (0x0#4 ++ x) = .load ∧ decodeFirst (0x1#4 ++ x) = .store x ∧
    decodeFirst (0x2#4 ++ x) = .add x ∧ decodeFirst (0x3#4 ++ x) = .sub x ∧
    decodeFirst (0x4#4 ++ x) = .and x ∧ decodeFirst (0x5#4 ++ x) = .or x ∧
    decodeFirst (0x6#4 ++ x) = .xor x ∧ decodeFirst (0x7#4 ++ x) = .not ∧
    decodeFirst (0x8#4 ++ x) = .shl ∧ decodeFirst (0x9#4 ++ x) = .shr ∧
    decodeFirst (0xA#4 ++ x) = .jmp ∧ decodeFirst (0xB#4 ++ x) = .jz ∧
    decodeFirst (0xC#4 ++ x) = .jnz ∧ decodeFirst (0xD#4 ++ x) = .call x ∧
    decodeFirst (0xE#4 ++ x) = .ret) ∧
  decodeFirst 0xF0 = .halt ∧ decodeFirst 0xF1 = .inp ∧ decodeFirst 0xF2 = .out ∧
  decodeFirst 0xF3 = .disp ∧ decodeFirst 0xF4 = .curs ∧ decodeFirst 0xF5 = .clr ∧
  decodeFirst 0xF6 = .gmode ∧ decodeFirst 0xF7 = .gpix ∧ decodeFirst 0xF8 = .scroll ∧
  (∀ b : Byte, 0xF9 ≤ b.toNat → (decodeFirst b).mnemonic = "ILLEGAL") ∧
  (∀ b : Byte, (decodeFirst b).length = if b.toNat / 16 ∈ [0x0, 0xA, 0xB, 0xC, 0xD] then 2 else 1)

/-- Encoding what a byte decodes to gives the byte back, with a nibble that R74 lists as ignored cleared
(the encoder writes 0 there as the assembler does: log 10). -/
def Obligations.EncodeOfDecodeClearsIgnoredNibble : Prop :=
  ∀ b : Byte, encodeFirst (decodeFirst b) =
    if b.toNat / 16 ∈ [0x0, 0x7, 0x8, 0x9, 0xA, 0xB, 0xC, 0xE] then b &&& 0xF0 else b

/-- Every byte lies in exactly one row of the opcode table, the one of the instruction it decodes to. -/
def Obligations.OpcodeRowsPartitionTheBytes : Prop :=
  ∀ b : Byte, (opcodeTable.filter fun r => r.covers b).map (fun r => (r.mnemonic, r.length)) =
    [((decodeFirst b).mnemonic, (decodeFirst b).length)]

/-! ## The step -/

/-- A running machine whose PC is at the byte `p` runs the instruction that byte decodes to, from the PC
one further: `exec` of it, and nothing around it. An IN without an answer waits (log 2). -/
def Obligations.StepRunsDecodedInstruction : Prop :=
  ∀ (s : State) (p : Byte) (i : Instr), s.halted = false → s.waiting = false → s.pc.val = p.toNat →
    decodeFirst (s.mem.read p) = i → (i = .inp → s.hostInput ≠ []) →
    ∃ q : Fin 257, q.val = p.toNat + 1 ∧ step s = exec i { s with pc := q }

/-- A fetch at END halts with MEMORY_OUT_OF_RANGE and leaves PC there (40_execution_cycle.md section 1;
END is the spec's decision D1). -/
def Obligations.FetchAtEndHalts : Prop :=
  ∀ s : State, s.halted = false → s.waiting = false → s.pc.val = 256 →
    ∃ t, step s = .next t ∧ s.haltedFrom t .memoryOutOfRange

/-- A halted machine keeps its state under `step()`, `run()` and `execute(b)`, and `run()` returns 0 (the
spec's decision D17; that a step of it is a next state is the model's choice, log 4). -/
def Obligations.HaltedMachineKeepsItsState : Prop :=
  ∀ (s : State) (b : Byte), s.halted = true →
    step s = .next s ∧ hostRun s = .returned 0 s ∧ hostExecute b s = s

/-- The step of an IN with no answer begins the wait, and all else stays as before the fetch; the answer
completes that step, with A the answer, 0 for `none`, exactly as if it had been given before the step
(decision D14; that the wait is a next state, marked in `inWait`, is the model's choice, log 2). -/
def Obligations.InWaitsForTheHost : Prop :=
  ∀ (s : State) (p : Byte), s.halted = false → s.waiting = false → s.pc.val = p.toNat →
    s.mem.read p = 0xF1 → s.hostInput = [] →
    ∃ w, step s = .next w ∧ w.waiting = true ∧ w = { s with inWait := .step } ∧
      ∀ inp : Option Byte, ∃ t, hostAnswer inp w = t ∧ step (hostAnswer inp s) = .next t ∧
        t.a = inp.getD 0x00 ∧ t.pc.val = p.toNat + 1 ∧ t.flagsOfA ∧
        t = { s with a := t.a, pc := t.pc, z := t.z, n := t.n }

/-- Every completed step, every completed execute phase and every IN that its answer completes ends with
Z = bool(A = 0) and N = A[7] (R12; after a fault by decision D6). -/
def Obligations.FlagsFollowAAfterEveryStep : Prop :=
  (∀ s : State, s.halted = false → s.waiting = false → s.needsAnswer = false →
    ∃ t, step s = .next t ∧ t.flagsOfA) ∧
  (∀ (i : Instr) (s : State), (i = .inp → s.hostInput ≠ []) → ∃ t, exec i s = .next t ∧ t.flagsOfA) ∧
  ∀ (inp : Option Byte) (s : State), s.waiting = true →
    (completeIn inp s).flagsOfA ∧ (hostAnswer inp s).flagsOfA

/-! ## Data transfer and ALU: results and frames -/

/-- LOAD takes the byte at PC into A and moves PC past it; at END it halts with A unchanged (the spec's
decisions D1, D2). -/
def Obligations.LoadTakesTheNextByte : Prop :=
  ∀ s : State,
    (s.pc.val = 256 → s.halted = false →
      ∃ t, exec .load s = .next t ∧ s.haltedFrom t .memoryOutOfRange) ∧
    ∀ p : Byte, s.pc.val = p.toNat →
      ∃ t, exec .load s = .next t ∧ t.a = s.mem.read p ∧ t.pc.val = p.toNat + 1 ∧ t.flagsOfA ∧
        t = { s with a := t.a, pc := t.pc, z := t.z, n := t.n }

/-- STORE, 0x1d, writes A at its direct address 0..15 and no other byte, A and C stay, and no instruction
but CALL changes a byte at 16 or above (R111). -/
def Obligations.StoreWritesItsDirectCell : Prop :=
  (∀ (d : Nibble) (s : State), encodedAs (.store d) (0x1#4 ++ d) 1 ∧
    ∃ t, exec (.store d) s = .next t ∧
      (∀ addr : Byte, t.mem.read addr = if addr.toNat = d.toNat then s.a else s.mem.read addr) ∧
      t.flagsOfA ∧ t = { s with mem := t.mem, z := t.z, n := t.n }) ∧
  ∀ (i : Instr) (s t : State) (addr : Byte), exec i s = .next t → (∀ h, i ≠ .call h) →
    16 ≤ addr.toNat → t.mem.read addr = s.mem.read addr

/-- ADD and SUB of the byte at the direct address, modulo 256; C and all else unchanged (R121, R122). -/
def Obligations.AddAndSubWrapModulo256 : Prop :=
  ∀ (d : Nibble) (s : State) (m : Byte), m = s.mem.read (BitVec.ofNat 8 d.toNat) →
    encodedAs (.add d) (0x2#4 ++ d) 1 ∧ encodedAs (.sub d) (0x3#4 ++ d) 1 ∧
    (∃ t, exec (.add d) s = .next t ∧ t.a.toNat = (s.a.toNat + m.toNat) % 256 ∧ t.flagsOfA ∧
      t = { s with a := t.a, z := t.z, n := t.n }) ∧
    ∃ t, exec (.sub d) s = .next t ∧
      (t.a.toNat : Int) = ((s.a.toNat : Int) - (m.toNat : Int)) % 256 ∧ t.flagsOfA ∧
      t = { s with a := t.a, z := t.z, n := t.n }

/-- AND, OR and XOR with the byte at the direct address, bit by bit, and NOT as 255 - A; C and all else
unchanged (R123 to R126). -/
def Obligations.LogicInstructionsActBitwise : Prop :=
  ∀ (d x : Nibble) (s : State) (m : Byte), m = s.mem.read (BitVec.ofNat 8 d.toNat) →
    encodedAs (.and d) (0x4#4 ++ d) 1 ∧ encodedAs (.or d) (0x5#4 ++ d) 1 ∧
    encodedAs (.xor d) (0x6#4 ++ d) 1 ∧ encodedAs .not (0x7#4 ++ x) 1 ∧
    (∃ t, exec (.and d) s = .next t ∧ (∀ k < 8, t.a.getLsbD k = (s.a.getLsbD k && m.getLsbD k)) ∧
      t.flagsOfA ∧ t = { s with a := t.a, z := t.z, n := t.n }) ∧
    (∃ t, exec (.or d) s = .next t ∧ (∀ k < 8, t.a.getLsbD k = (s.a.getLsbD k || m.getLsbD k)) ∧
      t.flagsOfA ∧ t = { s with a := t.a, z := t.z, n := t.n }) ∧
    (∃ t, exec (.xor d) s = .next t ∧ (∀ k < 8, t.a.getLsbD k = (s.a.getLsbD k ^^ m.getLsbD k)) ∧
      t.flagsOfA ∧ t = { s with a := t.a, z := t.z, n := t.n }) ∧
    ∃ t, exec .not s = .next t ∧ t.a.toNat = 255 - s.a.toNat ∧ t.flagsOfA ∧
      t = { s with a := t.a, z := t.z, n := t.n }

/-- SHL and SHR shift by one, C takes the bit shifted out, all else is unchanged, and the pair gives
A & 0x7F (R127, R128). -/
def Obligations.ShiftsMoveOneBitIntoC : Prop :=
  ∀ (x : Nibble) (s : State), encodedAs .shl (0x8#4 ++ x) 1 ∧ encodedAs .shr (0x9#4 ++ x) 1 ∧
    ∃ t u v, exec .shl s = .next t ∧ exec .shr s = .next u ∧ exec .shr t = .next v ∧
      t.a.toNat = s.a.toNat * 2 % 256 ∧ (t.c = true ↔ 128 ≤ s.a.toNat) ∧ t.flagsOfA ∧
      t = { s with a := t.a, c := t.c, z := t.z, n := t.n } ∧
      u.a.toNat = s.a.toNat / 2 ∧ (u.c = true ↔ s.a.toNat % 2 = 1) ∧ u.flagsOfA ∧
      u = { s with a := u.a, c := u.c, z := u.z, n := u.n } ∧
      v.a = s.a &&& 0x7F

/-! ## Control transfer -/

/-- JMP adds the signed offset byte to that byte's own address, modulo 256; at END it halts (the spec's
decision D2). All else is unchanged. -/
def Obligations.JmpIsRelativeToItsOffsetByte : Prop :=
  ∀ s : State,
    (s.pc.val = 256 → s.halted = false →
      ∃ t, exec .jmp s = .next t ∧ s.haltedFrom t .memoryOutOfRange) ∧
    ∀ p : Byte, s.pc.val = p.toNat →
      ∃ t, exec .jmp s = .next t ∧
        (t.pc.val : Int) = ((p.toNat : Int) + (s.mem.read p).toInt) % 256 ∧ t.flagsOfA ∧
        t = { s with pc := t.pc, z := t.z, n := t.n }

/-- JZ jumps as JMP when Z is set and else skips the offset byte, JNZ the other way round; at END both
halt, taken or not (the spec's decision D2). All else is unchanged. -/
def Obligations.JzAndJnzBranchOnZ : Prop :=
  ∀ s : State,
    (s.pc.val = 256 → s.halted = false →
      (∃ t, exec .jz s = .next t ∧ s.haltedFrom t .memoryOutOfRange) ∧
      ∃ t, exec .jnz s = .next t ∧ s.haltedFrom t .memoryOutOfRange) ∧
    ∀ p : Byte, s.pc.val = p.toNat →
      ∃ t u, exec .jz s = .next t ∧ exec .jnz s = .next u ∧
        (s.z = true → (t.pc.val : Int) = ((p.toNat : Int) + (s.mem.read p).toInt) % 256 ∧
          u.pc.val = p.toNat + 1) ∧
        (s.z = false → t.pc.val = p.toNat + 1 ∧
          (u.pc.val : Int) = ((p.toNat : Int) + (s.mem.read p).toInt) % 256) ∧
        t.flagsOfA ∧ t = { s with pc := t.pc, z := t.z, n := t.n } ∧
        u.flagsOfA ∧ u = { s with pc := u.pc, z := u.z, n := u.n }

/-- CALL pushes (PC + 1) mod 256 and then takes the byte at PC, as it stands after the push, as the new
PC: the nibble is discarded. At END, and at SP = 0, it halts with nothing pushed (the spec's decisions
D2, D6, D8). All else is unchanged. -/
def Obligations.CallPushesAndThenReadsItsTarget : Prop :=
  ∀ (h : Nibble) (s : State),
    (s.pc.val = 256 → s.halted = false →
      ∃ t, exec (.call h) s = .next t ∧ s.haltedFrom t .memoryOutOfRange) ∧
    ∀ p : Byte, s.pc.val = p.toNat →
      (s.sp.toNat = 0 → s.halted = false →
        ∃ t, exec (.call h) s = .next t ∧ s.haltedFrom t .stackOverflow) ∧
      (0 < s.sp.toNat →
        ∃ t, exec (.call h) s = .next t ∧ t.sp.toNat = s.sp.toNat - 1 ∧
          (t.mem.read t.sp).toNat = (p.toNat + 1) % 256 ∧
          (∀ addr : Byte, addr ≠ t.sp → t.mem.read addr = s.mem.read addr) ∧
          t.pc.val = (t.mem.read p).toNat ∧ t.flagsOfA ∧
          t = { s with mem := t.mem, sp := t.sp, pc := t.pc, z := t.z, n := t.n })

/-- RET takes the byte at SP as the new PC and increments SP; at SP = 0xFF it halts with PC and SP
unchanged (the spec's decision D6). All else is unchanged. -/
def Obligations.RetPopsThePc : Prop :=
  ∀ s : State,
    (s.sp.toNat = 255 → s.halted = false →
      ∃ t, exec .ret s = .next t ∧ s.haltedFrom t .stackUnderflow) ∧
    (s.sp.toNat < 255 →
      ∃ t, exec .ret s = .next t ∧ t.pc.val = (s.mem.read s.sp).toNat ∧
        t.sp.toNat = s.sp.toNat + 1 ∧ t.flagsOfA ∧
        t = { s with sp := t.sp, pc := t.pc, z := t.z, n := t.n })

/-- HALT stops a running machine with reason HALT_INSTRUCTION, and no step follows (the reason's name is
the spec's decision D7; that a halted machine's step is a next state is log 4). -/
def Obligations.HaltStopsTheMachine : Prop :=
  ∀ s : State, s.halted = false →
    ∃ t, exec .halt s = .next t ∧ s.haltedFrom t .haltInstruction ∧ step t = .next t

/-- Each illegal byte 0xF9..0xFF halts a running machine with ILLEGAL_INSTRUCTION and changes nothing
else: all three rows of the table (the spec's decision D5). -/
def Obligations.IllegalBytesHalt : Prop :=
  ∀ s : State, s.halted = false →
    (∃ t, exec .illegalF9 s = .next t ∧ s.haltedFrom t .illegalInstruction) ∧
    (∀ x : BitVec 1, ∃ t, exec (.illegalFA x) s = .next t ∧ s.haltedFrom t .illegalInstruction) ∧
    (∀ x : BitVec 2, ∃ t, exec (.illegalFC x) s = .next t ∧ s.haltedFrom t .illegalInstruction) ∧
    ∀ b : Byte, 0xF9 ≤ b.toNat →
      ∃ t, exec (decodeFirst b) s = .next t ∧ s.haltedFrom t .illegalInstruction

/-! ## I/O and display -/

/-- IN takes the host's oldest answer into A, 0 for `none`; all else is unchanged (decision D14; the
queue of answers is the model's own, log 1). -/
def Obligations.InTakesTheOldestAnswer : Prop :=
  ∀ (s : State) (inp : Option Byte) (rest : List (Option Byte)), s.hostInput = inp :: rest →
    ∃ t, exec .inp s = .next t ∧ t.a = inp.getD 0x00 ∧ t.hostInput = rest ∧ t.flagsOfA ∧
      t = { s with a := t.a, hostInput := t.hostInput, z := t.z, n := t.n }

/-- OUT emits A and changes nothing else, no display state (decision D31; the list of emitted bytes is the
model's own, log 3). -/
def Obligations.OutEmitsA : Prop :=
  ∀ s : State, ∃ t, exec .out s = .next t ∧ t.hostOutput = s.hostOutput ++ [s.a] ∧ t.flagsOfA ∧
    t = { s with hostOutput := t.hostOutput, z := t.z, n := t.n }

/-- In text mode DISP writes A into the cursor's cell and moves the cursor to the next of the 64 cells,
the last wrapping to the first; in graphics mode it does nothing (the spec's decisions D9, D10). -/
def Obligations.DispWritesAndAdvances : Prop :=
  ∀ s : State,
    (s.displayMode = .text →
      ∃ t, exec .disp s = .next t ∧
        (∀ (y : Fin 4) (x : Fin 16), TextGrid.cell t.text y x =
          if y = s.cursorY ∧ x = s.cursorX then s.a else TextGrid.cell s.text y x) ∧
        t.cursorY.val * 16 + t.cursorX.val = (s.cursorY.val * 16 + s.cursorX.val + 1) % 64 ∧
        t.flagsOfA ∧
        t = { s with text := t.text, cursorX := t.cursorX, cursorY := t.cursorY, z := t.z, n := t.n }) ∧
    (s.displayMode = .graphics →
      ∃ t, exec .disp s = .next t ∧ t.flagsOfA ∧ t = { s with z := t.z, n := t.n })

/-- CURS takes the column from A[3:0] and the row from A[5:4], in both modes; all else is unchanged (R164). -/
def Obligations.CursSetsTheCursorFromA : Prop :=
  encodedAs .curs 0xF4 1 ∧ ∀ s : State, ∃ t, exec .curs s = .next t ∧ t.cursorX.val = s.a.toNat % 16 ∧
    t.cursorY.val = s.a.toNat / 16 % 4 ∧ t.flagsOfA ∧
    t = { s with cursorX := t.cursorX, cursorY := t.cursorY, z := t.z, n := t.n }

/-- CLR blanks the grid of the current mode (0x20 or 0) and homes the cursor in both modes; the other grid
and the scroll offset stay (the spec's decisions D10, D12). -/
def Obligations.ClrClearsTheGridOfTheMode : Prop :=
  ∀ s : State,
    ∃ t, exec .clr s = .next t ∧ t.cursorX.val = 0 ∧ t.cursorY.val = 0 ∧ t.flagsOfA ∧
      (s.displayMode = .text → (∀ (y : Fin 4) (x : Fin 16), TextGrid.cell t.text y x = 0x20) ∧
        t.gfx = s.gfx) ∧
      (s.displayMode = .graphics → (∀ y x : Fin 32, GfxGrid.pixel t.gfx y x = false) ∧
        t.text = s.text) ∧
      t = { s with text := t.text, gfx := t.gfx, cursorX := t.cursorX, cursorY := t.cursorY,
                   z := t.z, n := t.n }

/-- GMODE selects graphics for every nonzero A and text for 0; neither grid nor the cursor changes (R166). -/
def Obligations.GmodeSelectsTheMode : Prop :=
  encodedAs .gmode 0xF6 1 ∧ ∀ s : State, ∃ t, exec .gmode s = .next t ∧
    (s.a.toNat ≠ 0 → t.displayMode = .graphics) ∧ (s.a.toNat = 0 → t.displayMode = .text) ∧
    t.flagsOfA ∧ t = { s with displayMode := t.displayMode, z := t.z, n := t.n }

/-- GPIX sets the pixel at column A[4:0], row A[7:5], and no other, in either mode (the spec's decision
D11). -/
def Obligations.GpixSetsOnePixel : Prop :=
  ∀ s : State, ∃ t, exec .gpix s = .next t ∧
    (∀ y x : Fin 32, GfxGrid.pixel t.gfx y x =
      if y.val = s.a.toNat / 32 ∧ x.val = s.a.toNat % 32 then true else GfxGrid.pixel s.gfx y x) ∧
    t.flagsOfA ∧ t = { s with gfx := t.gfx, z := t.z, n := t.n }

/-- SCROLL adds A to the scroll offset modulo 4 in text mode and has no effect in graphics mode; all else
is unchanged (R168). -/
def Obligations.ScrollAddsAModuloFour : Prop :=
  encodedAs .scroll 0xF8 1 ∧ ∀ s : State, ∃ t, exec .scroll s = .next t ∧
    (s.displayMode = .text → t.scrollOffset.val = (s.scrollOffset.val + s.a.toNat) % 4) ∧
    (s.displayMode = .graphics → t.scrollOffset = s.scrollOffset) ∧ t.flagsOfA ∧
    t = { s with scrollOffset := t.scrollOffset, z := t.z, n := t.n }

/-! ## The stack -/

/-- Push decrements SP and then writes, Pop reads and then increments SP; at the bound neither is
performed and the halt reason comes back (R50, R51). -/
def Obligations.PushAndPopPrimitives : Prop :=
  (∀ (v : Byte) (s : State),
    (s.sp.toNat = 0 → push v s = .error .stackOverflow) ∧
    (0 < s.sp.toNat → ∃ t, push v s = .ok t ∧ t.sp.toNat = s.sp.toNat - 1 ∧
      (∀ addr : Byte, t.mem.read addr = if addr = t.sp then v else s.mem.read addr) ∧
      t = { s with mem := t.mem, sp := t.sp })) ∧
  ∀ s : State,
    (s.sp.toNat = 255 → pop s = .error .stackUnderflow) ∧
    (s.sp.toNat < 255 → ∃ t, pop s = .ok (s.mem.read s.sp, t) ∧ t.sp.toNat = s.sp.toNat + 1 ∧
      t = { s with sp := t.sp })

/-- Bytes pushed come back last first, and SP is where it was (20_memory.md section 1; corrected bound
90_conflicts.md C3). -/
def Obligations.StackIsLastInFirstOut : Prop :=
  ∀ (vs : List Byte) (s : State), vs.length ≤ s.sp.toNat →
    ∃ t, pushAll vs s = .ok t ∧ popTimes vs.length t = .ok (vs.reverse, { t with sp := s.sp })

/-- From SP = 0xFF exactly 255 pushes fit: a list of bytes is pushed whole if and only if it has at most
255, else STACK_OVERFLOW comes back (90_conflicts.md C3). -/
def Obligations.StackHoldsAtMost255Bytes : Prop :=
  ∀ (vs : List Byte) (s : State), s.sp = 0xFF →
    (vs.length ≤ 255 → ∃ t, pushAll vs s = .ok t) ∧
    (255 < vs.length → pushAll vs s = .error .stackOverflow)

/-- A CALL that pushes, followed by a RET, continues after the CALL with SP restored (from R143 and R144). -/
def Obligations.CallThenRetContinuesAfterTheCall : Prop :=
  ∀ (h : Nibble) (s : State) (p : Byte), s.pc.val = p.toNat → 0 < s.sp.toNat →
    ∃ t u, exec (.call h) s = .next t ∧ exec .ret t = .next u ∧
      u.pc.val = (p.toNat + 1) % 256 ∧ u.sp = s.sp

/-! ## Interrupts -/

/-- An interrupt taken pushes PC, jumps to the byte stored at `interrupt_vector` and changes nothing else:
no flag, not the enable (the spec's decision D15). -/
def Obligations.InterruptEntryPushesPcAndJumps : Prop :=
  ∀ (s : State) (p : Byte), s.halted = false → s.interruptEnabled = true → s.pc.val = p.toNat →
    0 < s.sp.toNat →
    (interruptEntry s).sp.toNat = s.sp.toNat - 1 ∧
    (∀ addr : Byte, (interruptEntry s).mem.read addr =
      if addr = (interruptEntry s).sp then p else s.mem.read addr) ∧
    (interruptEntry s).pc.val = ((interruptEntry s).mem.read s.interruptVector).toNat ∧
    interruptEntry s = { s with mem := (interruptEntry s).mem, sp := (interruptEntry s).sp,
                                pc := (interruptEntry s).pc }

/-- An interrupt request has no effect while halted or disabled; at END it halts with MEMORY_OUT_OF_RANGE
and at SP = 0 with STACK_OVERFLOW, with no `UpdateZN()` and nothing pushed (the spec's decision D15). -/
def Obligations.InterruptRequestGateAndFaults : Prop :=
  ∀ s : State,
    (s.halted = true ∨ s.interruptEnabled = false → interruptEntry s = s) ∧
    (s.halted = false → s.interruptEnabled = true → s.pc.val = 256 →
      interruptEntry s = { s with halted := true, haltReason := .memoryOutOfRange }) ∧
    (s.halted = false → s.interruptEnabled = true → s.pc.val < 256 → s.sp.toNat = 0 →
      interruptEntry s = { s with halted := true, haltReason := .stackOverflow })

/-- RET returns from an interrupt: PC and SP are as before the entry, the enable is unchanged, and it
restores nothing else (from R236, R237; decision D15). -/
def Obligations.RetReturnsFromAnInterrupt : Prop :=
  ∀ s : State, s.halted = false → s.interruptEnabled = true → s.pc.val < 256 → 0 < s.sp.toNat →
    ∃ t, exec .ret (interruptEntry s) = .next t ∧ t.flagsOfA ∧
      t = { s with mem := (interruptEntry s).mem, z := t.z, n := t.n }

/-! ## Rules of the whole machine -/

/-- Only SHL and SHR write C, they write A[7] and A[0] as they were before the shift, and no instruction
reads C (R29). -/
def Obligations.OnlyShiftsWriteC : Prop :=
  (∀ (i : Instr) (s t : State), exec i s = .next t → i ≠ .shl → i ≠ .shr → t.c = s.c ∧
    ∀ c : Bool, exec i { s with c := c } = .next { t with c := c }) ∧
  ∀ (s : State) (c : Bool),
    (∃ t, exec .shl s = .next t ∧ t.c = s.a.getLsbD 7 ∧ exec .shl { s with c := c } = .next t) ∧
    ∃ t, exec .shr s = .next t ∧ t.c = s.a.getLsbD 0 ∧ exec .shr { s with c := c } = .next t

/-- SP is 0xFF at reset, decreases on push and increases on pop; no instruction but CALL and RET changes
it, and no other reads it (R24). -/
def Obligations.OnlyTheStackPrimitivesMoveSp : Prop :=
  State.reset.sp = 0xFF ∧
  (∀ (v : Byte) (s t : State), push v s = .ok t → t.sp.toNat + 1 = s.sp.toNat) ∧
  (∀ (v : Byte) (s t : State), pop s = .ok (v, t) → t.sp.toNat = s.sp.toNat + 1) ∧
  ∀ (i : Instr) (s t : State) (v : Byte), exec i s = .next t → (∀ h, i ≠ .call h) → i ≠ .ret →
    t.sp = s.sp ∧ exec i { s with sp := v } = .next { t with sp := v }

/-- No instruction reads or writes B, `interrupt_enabled` or `interrupt_vector`, and of the host's calls
only reset writes B, only reset and the host's own setting write the other two (10_state.md sections 2
and 4, decision D16). -/
def Obligations.OnlyTheHostWritesBAndInterruptFields : Prop :=
  (∀ (i : Instr) (s t : State) (b v : Byte) (e : Bool), exec i s = .next t →
    t.b = s.b ∧ t.interruptEnabled = s.interruptEnabled ∧ t.interruptVector = s.interruptVector ∧
    exec i { s with b := b, interruptEnabled := e, interruptVector := v } =
      .next { t with b := b, interruptEnabled := e, interruptVector := v }) ∧
  ∀ (h : HostCall) (s : State), h ≠ .reset →
    (hostCall h s).b = s.b ∧
    ((∀ e, h ≠ .setEnabled e) → (hostCall h s).interruptEnabled = s.interruptEnabled) ∧
    ((∀ v, h ≠ .setVector v) → (hostCall h s).interruptVector = s.interruptVector)

/-- Memory frame of every instruction: the only byte STORE d changes is that at d, the only byte CALL
changes is that at SP - 1, and no other instruction changes a byte (20_memory.md sections 2 and 3). -/
def Obligations.OnlyStoreAndCallWriteMemory : Prop :=
  ∀ (i : Instr) (s t : State) (addr : Byte), exec i s = .next t →
    (∀ d, i = .store d → addr.toNat ≠ d.toNat) → (∀ h, i = .call h → addr ≠ s.sp - 1#8) →
    t.mem.read addr = s.mem.read addr

/-- No instruction but the six display instructions changes the display, and those write no other field
than Z and N (44_io_display.md section 2). -/
def Obligations.OnlyDisplayInstructionsChangeTheDisplay : Prop :=
  ∀ (i : Instr) (s t : State), exec i s = .next t →
    (i ∉ [.disp, .curs, .clr, .gmode, .gpix, .scroll] → s.sameDisplay t) ∧
    (i ∈ [.disp, .curs, .clr, .gmode, .gpix, .scroll] →
      t = { s with displayMode := t.displayMode, cursorX := t.cursorX, cursorY := t.cursorY,
                   scrollOffset := t.scrollOffset, text := t.text, gfx := t.gfx, z := t.z, n := t.n })

/-- The halt reason tells the cause, for each of the three that can halt a machine, with every cause R230
gives and in R233's order of priority: an execute phase (from the PC after its fetch), a step (a fetch at
END comes first, and END before the stack bound), and an interrupt entry that is enabled (60_exceptions.md
section 1; decisions D2, D5, D6, D7, D15). -/
def Obligations.HaltReasonTellsTheCause : Prop :=
  (∀ (i : Instr) (s t : State), s.halted = false → s.haltReason = .none → exec i s = .next t →
    (t.halted = true ↔ t.haltReason ≠ .none) ∧
    (t.haltReason = .haltInstruction ↔ i = .halt) ∧
    (t.haltReason = .memoryOutOfRange ↔ s.pc.val = 256 ∧ i.length = 2) ∧
    (t.haltReason = .stackOverflow ↔ (∃ h, i = .call h) ∧ s.pc.val < 256 ∧ s.sp.toNat = 0) ∧
    (t.haltReason = .stackUnderflow ↔ i = .ret ∧ s.sp.toNat = 255) ∧
    (t.haltReason = .illegalInstruction ↔ i.mnemonic = "ILLEGAL")) ∧
  (∀ s t : State, s.halted = false → s.haltReason = .none → s.waiting = false → step s = .next t →
    (t.halted = true ↔ t.haltReason ≠ .none) ∧
    (t.haltReason = .haltInstruction ↔ fetched? s = some .halt) ∧
    (t.haltReason = .memoryOutOfRange ↔
      s.pc.val = 256 ∨ s.pc.val = 255 ∧ ∃ i, fetched? s = some i ∧ i.length = 2) ∧
    (t.haltReason = .stackOverflow ↔
      (∃ h, fetched? s = some (.call h)) ∧ s.pc.val < 255 ∧ s.sp.toNat = 0) ∧
    (t.haltReason = .stackUnderflow ↔ fetched? s = some .ret ∧ s.sp.toNat = 255) ∧
    (t.haltReason = .illegalInstruction ↔ ∃ i, fetched? s = some i ∧ i.mnemonic = "ILLEGAL")) ∧
  ∀ s t : State, s.halted = false → s.haltReason = .none → s.interruptEnabled = true →
    interruptEntry s = t →
    (t.halted = true ↔ t.haltReason ≠ .none) ∧
    (t.haltReason = .memoryOutOfRange ↔ s.pc.val = 256) ∧
    (t.haltReason = .stackOverflow ↔ s.pc.val < 256 ∧ s.sp.toNat = 0) ∧
    t.haltReason ∈ [.none, .memoryOutOfRange, .stackOverflow]

/-- An instruction that halts a running machine changes nothing but `halted`, `halt_reason`, Z and N
(60_exceptions.md section 1, "what each fault leaves behind"; decisions D2, D6). -/
def Obligations.HaltingInstructionChangesNothingElse : Prop :=
  ∀ (i : Instr) (s t : State), s.halted = false → exec i s = .next t → t.halted = true →
    s.haltedFrom t t.haltReason

/-! ## Invariants -/

/-- What R91 rests on: every step keeps "at END, Z and N agree with A". -/
def Obligations.StepKeepsFlagsAgreeingAtEnd : Prop :=
  ∀ s t : State, s.EndAgrees → step s = .next t → t.EndAgrees

/-- Every step and every call of the host keeps memory in its canonical form (log 27) and `halted` set
exactly when a reason is recorded. -/
def Obligations.CoherenceIsKept : Prop :=
  (∀ s t : State, s.Coherent → step s = .next t → t.Coherent) ∧
  ∀ (h : HostCall) (s : State), s.Coherent → (hostCall h s).Coherent

/-- The reset state meets the invariants. -/
def Obligations.ResetMeetsTheInvariants : Prop :=
  State.reset.Coherent ∧ State.reset.EndAgrees ∧ State.reset.LowerRowsBlank ∧ State.reset.WaitAtIn

/-- Rows 8..31 of the graphics grid can be set by no instruction and no call of the host
(44_io_display.md section 2; decision D11). -/
def Obligations.LowerPixelRowsStayBlank : Prop :=
  (∀ (i : Instr) (s t : State), s.LowerRowsBlank → exec i s = .next t → t.LowerRowsBlank) ∧
  ∀ (h : HostCall) (s : State), s.LowerRowsBlank → (hostCall h s).LowerRowsBlank

/-- An IN waits only in a running machine with no answer left, the IN of a step or of `run()` still stands at
PC, and a blocked `run()` has steps left under its cap: every step and every call of the host keeps this
(R97, R102, R105, R246; the field `inWait` is log 2 and 17). -/
def Obligations.WaitStaysAtItsIn : Prop :=
  (∀ s t : State, s.WaitAtIn → step s = .next t → t.WaitAtIn) ∧
  ∀ (h : HostCall) (s : State), s.WaitAtIn → (hostCall h s).WaitAtIn

/-- Whatever program the host loads and whatever it does: B is 0, rows 8..31 are blank, the state is
coherent and an IN waits only where one stands (the reset value of B is the spec's decision D3, that of the grid D12 and D13, log 6). -/
def Obligations.ReachableStatesAreGood : Prop :=
  ∀ s : State, s.Reachable → s.b = 0x00 ∧ s.LowerRowsBlank ∧ s.Coherent ∧ s.WaitAtIn

/-- Equal reads mean equal memories (the canonical form, log 27). -/
def Obligations.EqualReadsMeanEqualMemories : Prop :=
  ∀ m m' : Memory, m.wf = true → m'.wf = true → (∀ addr : Byte, m.read addr = m'.read addr) → m = m'

/-! ## The host's calls -/

/-- While an IN waits, a step and every call of the host but reset and the answer leave the state as it is,
and `run()` completes no step. Reset ends the wait, and so does the answer, which completes the IN: A takes
it, the IN of a step or of `run()` moves past its byte, that of an `execute(0xF1)` has no fetch to make, and
nothing else changes. That is all the answer does to a step or an `execute`; a blocked `run()` goes on from
there, with the IN's step counted (60_exceptions.md section 3, 40_execution_cycle.md sections 1 and 2;
decision D14; how the wait is held is log 2, that of `run()` log 17). -/
def Obligations.OnlyAnswerOrResetEndsTheWait : Prop :=
  (∀ s : State, s.waiting = true →
    step s = .next s ∧ (s.halted = false → hostRun s = .waiting 0 s) ∧
    (∀ h : HostCall, h ≠ .reset → (∀ inp, h ≠ .answer inp) → hostCall h s = s) ∧
    (hostCall .reset s).waiting = false ∧
    ∀ inp : Option Byte, ∃ t, completeIn inp s = t ∧ t.waiting = false ∧ t.a = inp.getD 0x00 ∧
      (s.inWait ≠ .execute → s.pc.val < 256 → t.pc.val = s.pc.val + 1) ∧
      (s.inWait = .execute → t.pc = s.pc) ∧ t.flagsOfA ∧
      t = { s with a := t.a, pc := t.pc, z := t.z, n := t.n, inWait := .none } ∧
      (s.inWait = .step ∨ s.inWait = .execute → hostCall (.answer inp) s = t) ∧
      ∀ count, s.inWait = .run count →
        ∃ r, answerReturns inp s = some r ∧ hostCall (.answer inp) s = r.state ∧
          r = runLoop (Config.runCap - (count + 1)) (count + 1) t) ∧
  ∀ s : State, s.hostInput = [] →
    ∃ t, exec .inp s = .next t ∧ t.waiting = true ∧ t = { s with inWait := .execute }

/-- `fetch()` and then `execute()` of the byte it returned is one step, from every state that agrees at END
and is between steps; where that step is an IN without an answer, both wait, and the answer makes them one
(40_execution_cycle.md section 2, decision D22; for a halted machine log 15). -/
def Obligations.FetchThenExecuteIsOneStep : Prop :=
  ∀ s : State, s.EndAgrees → s.waiting = false →
    (s.halted = true ∨ s.needsAnswer = false →
      step s = .next (hostExecute (hostFetch s).1 (hostFetch s).2)) ∧
    (s.halted = false → s.needsAnswer = true → ∀ inp : Option Byte,
      (hostStep s).waiting = true ∧ (hostExecute (hostFetch s).1 (hostFetch s).2).waiting = true ∧
      hostAnswer inp (hostStep s) = hostAnswer inp (hostExecute (hostFetch s).1 (hostFetch s).2))

/-- `run()` under any cap completes as many steps as it counts, at most the cap, and stops because it
halted, because the cap is reached with `halted` unchanged, or at the IN of the step after them, which waits
for an answer. The answer lets that `run()` go on, and it comes to exactly what it would have come to with
the answer given beforehand, its count included (40_execution_cycle.md section 2, decision D18; how a
blocked `run()` is held is log 17). -/
def Obligations.RunCountsItsSteps : Prop :=
  (∀ (cap : Nat) (s : State), s.waiting = false →
    (runLoop cap 0 s).count ≤ cap ∧
    (∀ k < (runLoop cap 0 s).count, (stepTimes k s).halted = false ∧ (stepTimes k s).waiting = false ∧
      (stepTimes k s).needsAnswer = false) ∧
    (∀ (k : Nat) (t : State), runLoop cap 0 s = .returned k t →
      t = stepTimes k s ∧ (t.halted = true ∨ k = cap)) ∧
    ∀ (k : Nat) (w : State), runLoop cap 0 s = .waiting k w →
      w = { stepTimes k s with inWait := .run k } ∧ (stepTimes k s).needsAnswer = true ∧
        w.halted = false ∧ k < cap ∧
        ∀ inp : Option Byte, resumeLoop cap inp k w = runLoop cap 0 (hostAnswer inp s)) ∧
  ∀ (s w : State) (k : Nat), s.waiting = false → hostRun s = .waiting k w → ∀ inp : Option Byte,
    answerReturns inp w = some (hostRun (hostAnswer inp s)) ∧
    hostCall (.answer inp) w = (hostRun (hostAnswer inp s)).state

/-- Under any answers of the host a run ends in exactly one of three ways: final, waiting at an IN that the
host never answers, or endless; and an IN that the host answers does not wait on, so an endless run
completes steps without end (70_reset_and_hazards.md section 3; decisions D17, D18; how the wait and the
answers are held is log 2). -/
def Obligations.RunEndsInExactlyOneWay : Prop :=
  ∀ (host : Answers) (s : State), s.WaitAtIn →
    (s.endsFinal host ∨ s.endsWaiting host ∨ s.endless host) ∧
    ¬ (s.endsFinal host ∧ s.endsWaiting host) ∧ ¬ (s.endsFinal host ∧ s.endless host) ∧
    ¬ (s.endsWaiting host ∧ s.endless host) ∧
    ∀ k, (runAfter host s k).state.waiting = true → ¬ (runAfter host s k).stuck host →
      (runAfter host s (k + 1)).state.waiting = false

/-- `load_program` writes the first 256 bytes from address 0 on, leaves every other cell and every other
field, and warns exactly when it cut the program (40_execution_cycle.md section 2, decision D19). -/
def Obligations.LoadProgramWritesItsBytesOnly : Prop :=
  ∀ (p : List Byte) (s : State),
    (∀ addr : Byte, (loadProgram p s).1.mem.read addr = (p[addr.toNat]?).getD (s.mem.read addr)) ∧
    (loadProgram p s).1 = { s with mem := (loadProgram p s).1.mem } ∧
    ((loadProgram p s).2 = true ↔ 256 < p.length)

/-- The reset values: SP and PC are the source's, the others the spec's decisions D3, D4, D7, D12, D13 and
D16 (log 6), in R40's codes too; reset sets them from every state, an IN that waits is abandoned, and the
host's channels stay (log 16). -/
def Obligations.ResetValues : Prop :=
  ∀ s : State, ∃ t, t = hostReset s ∧ t.sp = 0xFF ∧ t.pc.val = 0 ∧ (∀ addr : Byte, t.mem.read addr = 0x00) ∧
    t.a = 0x00 ∧ t.b = 0x00 ∧ t.z = false ∧ t.n = false ∧ t.c = false ∧ t.halted = false ∧
    t.haltReason = .none ∧ t.haltReason.code = 0 ∧ t.interruptEnabled = false ∧ t.interruptVector = 0x00 ∧
    t.inWait = .none ∧ t.displayMode = .text ∧ t.displayMode.code = 0 ∧
    t.cursorX.val = 0 ∧ t.cursorY.val = 0 ∧ t.scrollOffset.val = 0 ∧
    (∀ (y : Fin 4) (x : Fin 16), TextGrid.cell t.text y x = 0x20) ∧
    (∀ y x : Fin 32, GfxGrid.pixel t.gfx y x = false) ∧
    t = { State.reset with hostInput := s.hostInput, hostOutput := s.hostOutput }

/-! ## The assembler -/

/-- The bytes of each of the 24 mnemonics with its operand's value: LOAD, the direct-address operations, CALL,
the relative jumps, whose offset is counted modulo 256 from the offset byte at the address plus 1, and the
operations without an operand (R194 to R198; the jumps' point of reference is the spec's decision D24, the
operand ranges D26). -/
def Obligations.AssemblerEncodesEachMnemonic : Prop :=
  (∀ (labels : List (Token × Option Nat)) (addr v : Nat) (t : Token), operandValue labels t = .ok (some v) →
    (v ≤ 255 → encodeLine labels addr ["LOAD".toList, t] = .ok [0x00, BitVec.ofNat 8 v]) ∧
    (v ≤ 15 →
      encodeLine labels addr ["STORE".toList, t] = .ok [BitVec.ofNat 8 (0x10 + v)] ∧
      encodeLine labels addr ["ADD".toList, t] = .ok [BitVec.ofNat 8 (0x20 + v)] ∧
      encodeLine labels addr ["SUB".toList, t] = .ok [BitVec.ofNat 8 (0x30 + v)] ∧
      encodeLine labels addr ["AND".toList, t] = .ok [BitVec.ofNat 8 (0x40 + v)] ∧
      encodeLine labels addr ["OR".toList, t] = .ok [BitVec.ofNat 8 (0x50 + v)] ∧
      encodeLine labels addr ["XOR".toList, t] = .ok [BitVec.ofNat 8 (0x60 + v)]) ∧
    (v ≤ 255 → encodeLine labels addr ["CALL".toList, t] = .ok [0xD0, BitVec.ofNat 8 v]) ∧
    (v ≤ 255 → ∃ off : Byte, (off.toNat : Int) = ((v : Int) - ((addr : Int) + 1)) % 256 ∧
      encodeLine labels addr ["JMP".toList, t] = .ok [0xA0, off] ∧
      encodeLine labels addr ["JZ".toList, t] = .ok [0xB0, off] ∧
      encodeLine labels addr ["JNZ".toList, t] = .ok [0xC0, off])) ∧
  ∀ (labels : List (Token × Option Nat)) (addr : Nat),
    [("NOT", 0x70), ("SHL", 0x80), ("SHR", 0x90), ("RET", 0xE0), ("HALT", 0xF0), ("IN", 0xF1),
      ("OUT", 0xF2), ("DISP", 0xF3), ("CURS", 0xF4), ("CLR", 0xF5), ("GMODE", 0xF6), ("GPIX", 0xF7),
      ("SCROLL", 0xF8)].all (fun row : String × Byte =>
        decide (encodeLine labels addr [row.1.toList] = .ok [row.2])) = true

/-- A jump assembled at an address `addr` below 255 and run there lands exactly on its operand's value: JMP,
and JZ or JNZ when they are taken (45_assembler.md section 3, decision D24). -/
def Obligations.AssembledJumpLandsOnItsTarget : Prop :=
  ∀ (name : Token) (labels : List (Token × Option Nat)) (t : Token) (v : Nat) (s : State) (addr b1 b2 : Byte),
    name = "JMP".toList ∨ (name = "JZ".toList ∧ s.z = true) ∨ (name = "JNZ".toList ∧ s.z = false) →
    operandValue labels t = .ok (some v) → encodeLine labels addr.toNat [name, t] = .ok [b1, b2] →
    addr.toNat < 255 → s.halted = false → s.waiting = false → s.pc.val = addr.toNat → s.mem.read addr = b1 →
    s.mem.read (addr + 1) = b2 →
    ∃ u, step s = .next u ∧ u.pc.val = v

/-- A macro without parameters, whose body holds no directive, label or invocation, assembles to the same
bytes as its body lines written at the call site (45_assembler.md section 4). Where they fail both fail with
the same error, its line included, when the written lines carry the invocation's number, as every line of
an expansion does (log 21, the model's choice). -/
def Obligations.MacroWithoutParametersInlines : Prop :=
  ∀ (ms : List MacroDef) (m : MacroDef) (pre post : List Item) (num : Nat),
    findMacro ms m.name = some m → m.params = [] →
    (∀ L ∈ m.body, ∃ t rest, L = t :: rest ∧ t ≠ macroWord ∧ t ≠ endmacroWord ∧
      endsInColon t = false ∧ findMacro ms t = none) →
    passTwo ms (pre ++ .line num [m.name] :: post) =
      passTwo ms (pre ++ m.body.map (.line num) ++ post)

/-- A label that is defined once has as an operand the number of bytes assembled before it
(45_assembler.md section 3, decision D23). -/
def Obligations.LabelsAreByteAddresses : Prop :=
  ∀ (xs ys : List Expanded) (name : Token) (bs : List Byte), .label name ∉ xs ++ ys →
    encodeFrom (labelTable (some 0) (xs ++ .label name :: ys)) 0 (xs ++ .label name :: ys) = .ok bs →
    ∃ bx bY, bs = bx ++ bY ∧
      encodeFrom (labelTable (some 0) (xs ++ .label name :: ys)) 0 xs = .ok bx ∧
      operandValue (labelTable (some 0) (xs ++ .label name :: ys)) name = .ok (some bx.length)

/-- Reassembling a legal instruction's listing at the same address gives its bytes back, a CALL's nibble as 0
(45_assembler.md section 4; the printing format is the spec's decision D30). -/
def Obligations.ListingReassembles : Prop :=
  ∀ (addr : Nat) (c : Code), c.wellFormed = true → c.instr.mnemonic ≠ "ILLEGAL" →
    encodeLine [] addr (tokens (listing addr c)) =
      .ok (encode (match c.instr with | .call _ => ⟨.call 0, c.operand⟩ | _ => c))
end

