-- ==== Sys2Proof/Laws/Memory.lean ====
section
/-! SUPPORT. The laws of memory (spec/20_memory.md R53): a read after a write, and that every memory
operation keeps the canonical form. -/

namespace Sys2Proof.Machine

variable {k j : Nat} {v : Byte} {m : Memory}

theorem lookup_erase_self (k : Nat) (m : Memory) :
    Memory.lookup k (Memory.erase k m) = Memory.unlisted := by
  induction m with
  | nil => rfl
  | cons c rest ih =>
    by_cases h : c.1 = k
    · simpa [Memory.erase, h] using ih
    · simpa [Memory.erase, h, Memory.lookup] using ih

theorem lookup_erase_other (m : Memory) (h : j ≠ k) :
    Memory.lookup j (Memory.erase k m) = Memory.lookup j m := by
  induction m with
  | nil => rfl
  | cons c rest ih =>
    simp only [Memory.erase] at ih
    by_cases hc : c.1 = k
    · simp [Memory.erase, Memory.lookup, hc, Ne.symm h, ih]
    · simp [Memory.erase, Memory.lookup, hc, ih]

theorem lookup_insert_other (v : Byte) (m : Memory) (h : j ≠ k) :
    Memory.lookup j (Memory.insert k v m) = Memory.lookup j m := by
  induction m with
  | nil => simp [Memory.insert, Memory.lookup, Ne.symm h]
  | cons c rest ih =>
    by_cases hc : k < c.1
    · simp [Memory.insert, Memory.lookup, hc, Ne.symm h]
    · simp [Memory.insert, Memory.lookup, hc, ih]

theorem lookup_insert_erase (k : Nat) (v : Byte) (m : Memory) :
    Memory.lookup k (Memory.insert k v (Memory.erase k m)) = v := by
  induction m with
  | nil => simp [Memory.erase, Memory.insert, Memory.lookup]
  | cons c rest ih =>
    by_cases hc : c.1 = k
    · simpa [Memory.erase, hc] using ih
    · by_cases hk : k < c.1
      · simp [Memory.erase, Memory.insert, Memory.lookup, hc, hk]
      · simpa [Memory.erase, Memory.insert, Memory.lookup, hc, hk] using ih

theorem lookup_put_self (k : Nat) (v : Byte) (m : Memory) : Memory.lookup k (Memory.put k v m) = v := by
  unfold Memory.put
  split
  · next h => rw [lookup_erase_self, h]
  · exact lookup_insert_erase k v m

theorem lookup_put_other (v : Byte) (m : Memory) (h : j ≠ k) :
    Memory.lookup j (Memory.put k v m) = Memory.lookup j m := by
  unfold Memory.put
  split
  · exact lookup_erase_other m h
  · rw [lookup_insert_other v _ h, lookup_erase_other m h]

/-- A read after a write to the same cell gives the byte written (R53). -/
@[simp] theorem read_write_self (m : Memory) (addr v : Byte) : (m.write addr v).read addr = v :=
  lookup_put_self _ v m

/-- "A write changes exactly that one cell" (R53). -/
theorem read_write_other {addr other : Byte} (m : Memory) (v : Byte) (h : other ≠ addr) :
    (m.write addr v).read other = m.read other :=
  lookup_put_other v m fun e => h (BitVec.eq_of_toNat_eq e)

theorem read_write (m : Memory) (addr other v : Byte) :
    (m.write addr v).read other = if other = addr then v else m.read other := by
  split
  · next h => rw [h, read_write_self]
  · next h => exact read_write_other m v h

theorem wfFrom_mono {lo lo' : Nat} (h : lo' ≤ lo) (hm : Memory.wfFrom lo m = true) :
    Memory.wfFrom lo' m = true := by
  cases m with
  | nil => rfl
  | cons c rest =>
    simp only [Memory.wfFrom, Bool.and_eq_true, decide_eq_true_eq] at hm ⊢
    exact ⟨⟨⟨by omega, hm.1.1.2⟩, hm.1.2⟩, hm.2⟩

theorem wfFrom_erase (k : Nat) : ∀ {lo : Nat} {m : Memory}, Memory.wfFrom lo m = true →
    Memory.wfFrom lo (Memory.erase k m) = true
  | _, [], h => h
  | lo, c :: rest, h => by
    simp only [Memory.wfFrom, Bool.and_eq_true, decide_eq_true_eq] at h
    have ih := wfFrom_erase k h.2
    by_cases hc : c.1 = k
    · simpa [Memory.erase, hc] using wfFrom_mono (by omega : lo ≤ c.1 + 1) ih
    · simp only [Memory.erase] at ih
      simp [Memory.erase, hc, Memory.wfFrom, h.1.1.1, h.1.1.2, ih, by simpa using h.1.2]

theorem erase_not_mem (k : Nat) (m : Memory) : ∀ c ∈ Memory.erase k m, c.1 ≠ k := by
  intro c hc
  simpa using (List.mem_filter.1 hc).2

theorem wfFrom_insert (hv : v ≠ Memory.unlisted) (hk : k < 256) : ∀ {lo : Nat} {m : Memory}, lo ≤ k →
    (∀ c ∈ m, c.1 ≠ k) → Memory.wfFrom lo m = true → Memory.wfFrom lo (Memory.insert k v m) = true
  | lo, [], hlo, _, _ => by simp [Memory.insert, Memory.wfFrom, hlo, hk, hv]
  | lo, c :: rest, hlo, hne, h => by
    simp only [Memory.wfFrom, Bool.and_eq_true, decide_eq_true_eq, bne_iff_ne] at h
    by_cases hc : k < c.1
    · simp only [Memory.insert, hc, if_true, Memory.wfFrom, Bool.and_eq_true, decide_eq_true_eq, bne_iff_ne]
      exact ⟨⟨⟨hlo, hk⟩, hv⟩, ⟨⟨⟨by omega, h.1.1.2⟩, h.1.2⟩, h.2⟩⟩
    · have hck := hne c (List.mem_cons_self ..)
      have ih := wfFrom_insert hv hk (by omega : c.1 + 1 ≤ k) (fun d hd => hne d (List.mem_cons_of_mem _ hd)) h.2
      simp only [Memory.insert, hc, if_false, Memory.wfFrom, Bool.and_eq_true, decide_eq_true_eq, bne_iff_ne]
      exact ⟨h.1, ih⟩

/-- A write keeps the canonical form. -/
theorem wf_write {m : Memory} (addr v : Byte) (h : m.wf = true) : (m.write addr v).wf = true := by
  unfold Memory.write Memory.put Memory.wf
  split
  · exact wfFrom_erase _ h
  · next hv => exact wfFrom_insert hv addr.isLt (Nat.zero_le _) (erase_not_mem _ m) (wfFrom_erase _ h)

/-- Memory at reset is in the canonical form. -/
theorem wf_reset : State.reset.mem.wf = true := rfl

end Sys2Proof.Machine
end

