-- ==== Sys2Proof/Laws/State.lean ====
section
/-! SUPPORT. One lemma per field of State and update of Machine/Ops.lean and Machine/Flags.lean, each true
by `rfl`, so that no later proof unfolds a record update. -/

namespace Sys2Proof.Machine

variable (s : State)

/-! ### setMem -/

@[simp] theorem setMem_mem (m : Memory) : (setMem m s).mem = m := rfl
@[simp] theorem setMem_a (m : Memory) : (setMem m s).a = s.a := rfl
@[simp] theorem setMem_b (m : Memory) : (setMem m s).b = s.b := rfl
@[simp] theorem setMem_sp (m : Memory) : (setMem m s).sp = s.sp := rfl
@[simp] theorem setMem_pc (m : Memory) : (setMem m s).pc = s.pc := rfl
@[simp] theorem setMem_z (m : Memory) : (setMem m s).z = s.z := rfl
@[simp] theorem setMem_n (m : Memory) : (setMem m s).n = s.n := rfl
@[simp] theorem setMem_c (m : Memory) : (setMem m s).c = s.c := rfl
@[simp] theorem setMem_halted (m : Memory) : (setMem m s).halted = s.halted := rfl
@[simp] theorem setMem_haltReason (m : Memory) : (setMem m s).haltReason = s.haltReason := rfl
@[simp] theorem setMem_interruptEnabled (m : Memory) : (setMem m s).interruptEnabled = s.interruptEnabled := rfl
@[simp] theorem setMem_interruptVector (m : Memory) : (setMem m s).interruptVector = s.interruptVector := rfl
@[simp] theorem setMem_displayMode (m : Memory) : (setMem m s).displayMode = s.displayMode := rfl
@[simp] theorem setMem_cursorX (m : Memory) : (setMem m s).cursorX = s.cursorX := rfl
@[simp] theorem setMem_cursorY (m : Memory) : (setMem m s).cursorY = s.cursorY := rfl
@[simp] theorem setMem_scrollOffset (m : Memory) : (setMem m s).scrollOffset = s.scrollOffset := rfl
@[simp] theorem setMem_text (m : Memory) : (setMem m s).text = s.text := rfl
@[simp] theorem setMem_gfx (m : Memory) : (setMem m s).gfx = s.gfx := rfl
@[simp] theorem setMem_inWait (m : Memory) : (setMem m s).inWait = s.inWait := rfl
@[simp] theorem setMem_hostInput (m : Memory) : (setMem m s).hostInput = s.hostInput := rfl
@[simp] theorem setMem_hostOutput (m : Memory) : (setMem m s).hostOutput = s.hostOutput := rfl

/-! ### setA -/

@[simp] theorem setA_mem (v : Byte) : (setA v s).mem = s.mem := rfl
@[simp] theorem setA_a (v : Byte) : (setA v s).a = v := rfl
@[simp] theorem setA_b (v : Byte) : (setA v s).b = s.b := rfl
@[simp] theorem setA_sp (v : Byte) : (setA v s).sp = s.sp := rfl
@[simp] theorem setA_pc (v : Byte) : (setA v s).pc = s.pc := rfl
@[simp] theorem setA_z (v : Byte) : (setA v s).z = s.z := rfl
@[simp] theorem setA_n (v : Byte) : (setA v s).n = s.n := rfl
@[simp] theorem setA_c (v : Byte) : (setA v s).c = s.c := rfl
@[simp] theorem setA_halted (v : Byte) : (setA v s).halted = s.halted := rfl
@[simp] theorem setA_haltReason (v : Byte) : (setA v s).haltReason = s.haltReason := rfl
@[simp] theorem setA_interruptEnabled (v : Byte) : (setA v s).interruptEnabled = s.interruptEnabled := rfl
@[simp] theorem setA_interruptVector (v : Byte) : (setA v s).interruptVector = s.interruptVector := rfl
@[simp] theorem setA_displayMode (v : Byte) : (setA v s).displayMode = s.displayMode := rfl
@[simp] theorem setA_cursorX (v : Byte) : (setA v s).cursorX = s.cursorX := rfl
@[simp] theorem setA_cursorY (v : Byte) : (setA v s).cursorY = s.cursorY := rfl
@[simp] theorem setA_scrollOffset (v : Byte) : (setA v s).scrollOffset = s.scrollOffset := rfl
@[simp] theorem setA_text (v : Byte) : (setA v s).text = s.text := rfl
@[simp] theorem setA_gfx (v : Byte) : (setA v s).gfx = s.gfx := rfl
@[simp] theorem setA_inWait (v : Byte) : (setA v s).inWait = s.inWait := rfl
@[simp] theorem setA_hostInput (v : Byte) : (setA v s).hostInput = s.hostInput := rfl
@[simp] theorem setA_hostOutput (v : Byte) : (setA v s).hostOutput = s.hostOutput := rfl

/-! ### setSp -/

@[simp] theorem setSp_mem (v : Byte) : (setSp v s).mem = s.mem := rfl
@[simp] theorem setSp_a (v : Byte) : (setSp v s).a = s.a := rfl
@[simp] theorem setSp_b (v : Byte) : (setSp v s).b = s.b := rfl
@[simp] theorem setSp_sp (v : Byte) : (setSp v s).sp = v := rfl
@[simp] theorem setSp_pc (v : Byte) : (setSp v s).pc = s.pc := rfl
@[simp] theorem setSp_z (v : Byte) : (setSp v s).z = s.z := rfl
@[simp] theorem setSp_n (v : Byte) : (setSp v s).n = s.n := rfl
@[simp] theorem setSp_c (v : Byte) : (setSp v s).c = s.c := rfl
@[simp] theorem setSp_halted (v : Byte) : (setSp v s).halted = s.halted := rfl
@[simp] theorem setSp_haltReason (v : Byte) : (setSp v s).haltReason = s.haltReason := rfl
@[simp] theorem setSp_interruptEnabled (v : Byte) : (setSp v s).interruptEnabled = s.interruptEnabled := rfl
@[simp] theorem setSp_interruptVector (v : Byte) : (setSp v s).interruptVector = s.interruptVector := rfl
@[simp] theorem setSp_displayMode (v : Byte) : (setSp v s).displayMode = s.displayMode := rfl
@[simp] theorem setSp_cursorX (v : Byte) : (setSp v s).cursorX = s.cursorX := rfl
@[simp] theorem setSp_cursorY (v : Byte) : (setSp v s).cursorY = s.cursorY := rfl
@[simp] theorem setSp_scrollOffset (v : Byte) : (setSp v s).scrollOffset = s.scrollOffset := rfl
@[simp] theorem setSp_text (v : Byte) : (setSp v s).text = s.text := rfl
@[simp] theorem setSp_gfx (v : Byte) : (setSp v s).gfx = s.gfx := rfl
@[simp] theorem setSp_inWait (v : Byte) : (setSp v s).inWait = s.inWait := rfl
@[simp] theorem setSp_hostInput (v : Byte) : (setSp v s).hostInput = s.hostInput := rfl
@[simp] theorem setSp_hostOutput (v : Byte) : (setSp v s).hostOutput = s.hostOutput := rfl

/-! ### setPc -/

@[simp] theorem setPc_mem (v : Fin 257) : (setPc v s).mem = s.mem := rfl
@[simp] theorem setPc_a (v : Fin 257) : (setPc v s).a = s.a := rfl
@[simp] theorem setPc_b (v : Fin 257) : (setPc v s).b = s.b := rfl
@[simp] theorem setPc_sp (v : Fin 257) : (setPc v s).sp = s.sp := rfl
@[simp] theorem setPc_pc (v : Fin 257) : (setPc v s).pc = v := rfl
@[simp] theorem setPc_z (v : Fin 257) : (setPc v s).z = s.z := rfl
@[simp] theorem setPc_n (v : Fin 257) : (setPc v s).n = s.n := rfl
@[simp] theorem setPc_c (v : Fin 257) : (setPc v s).c = s.c := rfl
@[simp] theorem setPc_halted (v : Fin 257) : (setPc v s).halted = s.halted := rfl
@[simp] theorem setPc_haltReason (v : Fin 257) : (setPc v s).haltReason = s.haltReason := rfl
@[simp] theorem setPc_interruptEnabled (v : Fin 257) : (setPc v s).interruptEnabled = s.interruptEnabled := rfl
@[simp] theorem setPc_interruptVector (v : Fin 257) : (setPc v s).interruptVector = s.interruptVector := rfl
@[simp] theorem setPc_displayMode (v : Fin 257) : (setPc v s).displayMode = s.displayMode := rfl
@[simp] theorem setPc_cursorX (v : Fin 257) : (setPc v s).cursorX = s.cursorX := rfl
@[simp] theorem setPc_cursorY (v : Fin 257) : (setPc v s).cursorY = s.cursorY := rfl
@[simp] theorem setPc_scrollOffset (v : Fin 257) : (setPc v s).scrollOffset = s.scrollOffset := rfl
@[simp] theorem setPc_text (v : Fin 257) : (setPc v s).text = s.text := rfl
@[simp] theorem setPc_gfx (v : Fin 257) : (setPc v s).gfx = s.gfx := rfl
@[simp] theorem setPc_inWait (v : Fin 257) : (setPc v s).inWait = s.inWait := rfl
@[simp] theorem setPc_hostInput (v : Fin 257) : (setPc v s).hostInput = s.hostInput := rfl
@[simp] theorem setPc_hostOutput (v : Fin 257) : (setPc v s).hostOutput = s.hostOutput := rfl

/-! ### setZN -/

@[simp] theorem setZN_mem (z n : Bool) : (setZN z n s).mem = s.mem := rfl
@[simp] theorem setZN_a (z n : Bool) : (setZN z n s).a = s.a := rfl
@[simp] theorem setZN_b (z n : Bool) : (setZN z n s).b = s.b := rfl
@[simp] theorem setZN_sp (z n : Bool) : (setZN z n s).sp = s.sp := rfl
@[simp] theorem setZN_pc (z n : Bool) : (setZN z n s).pc = s.pc := rfl
@[simp] theorem setZN_z (z n : Bool) : (setZN z n s).z = z := rfl
@[simp] theorem setZN_n (z n : Bool) : (setZN z n s).n = n := rfl
@[simp] theorem setZN_c (z n : Bool) : (setZN z n s).c = s.c := rfl
@[simp] theorem setZN_halted (z n : Bool) : (setZN z n s).halted = s.halted := rfl
@[simp] theorem setZN_haltReason (z n : Bool) : (setZN z n s).haltReason = s.haltReason := rfl
@[simp] theorem setZN_interruptEnabled (z n : Bool) : (setZN z n s).interruptEnabled = s.interruptEnabled := rfl
@[simp] theorem setZN_interruptVector (z n : Bool) : (setZN z n s).interruptVector = s.interruptVector := rfl
@[simp] theorem setZN_displayMode (z n : Bool) : (setZN z n s).displayMode = s.displayMode := rfl
@[simp] theorem setZN_cursorX (z n : Bool) : (setZN z n s).cursorX = s.cursorX := rfl
@[simp] theorem setZN_cursorY (z n : Bool) : (setZN z n s).cursorY = s.cursorY := rfl
@[simp] theorem setZN_scrollOffset (z n : Bool) : (setZN z n s).scrollOffset = s.scrollOffset := rfl
@[simp] theorem setZN_text (z n : Bool) : (setZN z n s).text = s.text := rfl
@[simp] theorem setZN_gfx (z n : Bool) : (setZN z n s).gfx = s.gfx := rfl
@[simp] theorem setZN_inWait (z n : Bool) : (setZN z n s).inWait = s.inWait := rfl
@[simp] theorem setZN_hostInput (z n : Bool) : (setZN z n s).hostInput = s.hostInput := rfl
@[simp] theorem setZN_hostOutput (z n : Bool) : (setZN z n s).hostOutput = s.hostOutput := rfl

/-! ### setC -/

@[simp] theorem setC_mem (c : Bool) : (setC c s).mem = s.mem := rfl
@[simp] theorem setC_a (c : Bool) : (setC c s).a = s.a := rfl
@[simp] theorem setC_b (c : Bool) : (setC c s).b = s.b := rfl
@[simp] theorem setC_sp (c : Bool) : (setC c s).sp = s.sp := rfl
@[simp] theorem setC_pc (c : Bool) : (setC c s).pc = s.pc := rfl
@[simp] theorem setC_z (c : Bool) : (setC c s).z = s.z := rfl
@[simp] theorem setC_n (c : Bool) : (setC c s).n = s.n := rfl
@[simp] theorem setC_c (c : Bool) : (setC c s).c = c := rfl
@[simp] theorem setC_halted (c : Bool) : (setC c s).halted = s.halted := rfl
@[simp] theorem setC_haltReason (c : Bool) : (setC c s).haltReason = s.haltReason := rfl
@[simp] theorem setC_interruptEnabled (c : Bool) : (setC c s).interruptEnabled = s.interruptEnabled := rfl
@[simp] theorem setC_interruptVector (c : Bool) : (setC c s).interruptVector = s.interruptVector := rfl
@[simp] theorem setC_displayMode (c : Bool) : (setC c s).displayMode = s.displayMode := rfl
@[simp] theorem setC_cursorX (c : Bool) : (setC c s).cursorX = s.cursorX := rfl
@[simp] theorem setC_cursorY (c : Bool) : (setC c s).cursorY = s.cursorY := rfl
@[simp] theorem setC_scrollOffset (c : Bool) : (setC c s).scrollOffset = s.scrollOffset := rfl
@[simp] theorem setC_text (c : Bool) : (setC c s).text = s.text := rfl
@[simp] theorem setC_gfx (c : Bool) : (setC c s).gfx = s.gfx := rfl
@[simp] theorem setC_inWait (c : Bool) : (setC c s).inWait = s.inWait := rfl
@[simp] theorem setC_hostInput (c : Bool) : (setC c s).hostInput = s.hostInput := rfl
@[simp] theorem setC_hostOutput (c : Bool) : (setC c s).hostOutput = s.hostOutput := rfl

/-! ### setHalt -/

@[simp] theorem setHalt_mem (h : Bool) (r : HaltReason) : (setHalt h r s).mem = s.mem := rfl
@[simp] theorem setHalt_a (h : Bool) (r : HaltReason) : (setHalt h r s).a = s.a := rfl
@[simp] theorem setHalt_b (h : Bool) (r : HaltReason) : (setHalt h r s).b = s.b := rfl
@[simp] theorem setHalt_sp (h : Bool) (r : HaltReason) : (setHalt h r s).sp = s.sp := rfl
@[simp] theorem setHalt_pc (h : Bool) (r : HaltReason) : (setHalt h r s).pc = s.pc := rfl
@[simp] theorem setHalt_z (h : Bool) (r : HaltReason) : (setHalt h r s).z = s.z := rfl
@[simp] theorem setHalt_n (h : Bool) (r : HaltReason) : (setHalt h r s).n = s.n := rfl
@[simp] theorem setHalt_c (h : Bool) (r : HaltReason) : (setHalt h r s).c = s.c := rfl
@[simp] theorem setHalt_halted (h : Bool) (r : HaltReason) : (setHalt h r s).halted = h := rfl
@[simp] theorem setHalt_haltReason (h : Bool) (r : HaltReason) : (setHalt h r s).haltReason = r := rfl
@[simp] theorem setHalt_interruptEnabled (h : Bool) (r : HaltReason) : (setHalt h r s).interruptEnabled = s.interruptEnabled := rfl
@[simp] theorem setHalt_interruptVector (h : Bool) (r : HaltReason) : (setHalt h r s).interruptVector = s.interruptVector := rfl
@[simp] theorem setHalt_displayMode (h : Bool) (r : HaltReason) : (setHalt h r s).displayMode = s.displayMode := rfl
@[simp] theorem setHalt_cursorX (h : Bool) (r : HaltReason) : (setHalt h r s).cursorX = s.cursorX := rfl
@[simp] theorem setHalt_cursorY (h : Bool) (r : HaltReason) : (setHalt h r s).cursorY = s.cursorY := rfl
@[simp] theorem setHalt_scrollOffset (h : Bool) (r : HaltReason) : (setHalt h r s).scrollOffset = s.scrollOffset := rfl
@[simp] theorem setHalt_text (h : Bool) (r : HaltReason) : (setHalt h r s).text = s.text := rfl
@[simp] theorem setHalt_gfx (h : Bool) (r : HaltReason) : (setHalt h r s).gfx = s.gfx := rfl
@[simp] theorem setHalt_inWait (h : Bool) (r : HaltReason) : (setHalt h r s).inWait = s.inWait := rfl
@[simp] theorem setHalt_hostInput (h : Bool) (r : HaltReason) : (setHalt h r s).hostInput = s.hostInput := rfl
@[simp] theorem setHalt_hostOutput (h : Bool) (r : HaltReason) : (setHalt h r s).hostOutput = s.hostOutput := rfl

/-! ### setDisplayMode -/

@[simp] theorem setDisplayMode_mem (m : DisplayMode) : (setDisplayMode m s).mem = s.mem := rfl
@[simp] theorem setDisplayMode_a (m : DisplayMode) : (setDisplayMode m s).a = s.a := rfl
@[simp] theorem setDisplayMode_b (m : DisplayMode) : (setDisplayMode m s).b = s.b := rfl
@[simp] theorem setDisplayMode_sp (m : DisplayMode) : (setDisplayMode m s).sp = s.sp := rfl
@[simp] theorem setDisplayMode_pc (m : DisplayMode) : (setDisplayMode m s).pc = s.pc := rfl
@[simp] theorem setDisplayMode_z (m : DisplayMode) : (setDisplayMode m s).z = s.z := rfl
@[simp] theorem setDisplayMode_n (m : DisplayMode) : (setDisplayMode m s).n = s.n := rfl
@[simp] theorem setDisplayMode_c (m : DisplayMode) : (setDisplayMode m s).c = s.c := rfl
@[simp] theorem setDisplayMode_halted (m : DisplayMode) : (setDisplayMode m s).halted = s.halted := rfl
@[simp] theorem setDisplayMode_haltReason (m : DisplayMode) : (setDisplayMode m s).haltReason = s.haltReason := rfl
@[simp] theorem setDisplayMode_interruptEnabled (m : DisplayMode) : (setDisplayMode m s).interruptEnabled = s.interruptEnabled := rfl
@[simp] theorem setDisplayMode_interruptVector (m : DisplayMode) : (setDisplayMode m s).interruptVector = s.interruptVector := rfl
@[simp] theorem setDisplayMode_displayMode (m : DisplayMode) : (setDisplayMode m s).displayMode = m := rfl
@[simp] theorem setDisplayMode_cursorX (m : DisplayMode) : (setDisplayMode m s).cursorX = s.cursorX := rfl
@[simp] theorem setDisplayMode_cursorY (m : DisplayMode) : (setDisplayMode m s).cursorY = s.cursorY := rfl
@[simp] theorem setDisplayMode_scrollOffset (m : DisplayMode) : (setDisplayMode m s).scrollOffset = s.scrollOffset := rfl
@[simp] theorem setDisplayMode_text (m : DisplayMode) : (setDisplayMode m s).text = s.text := rfl
@[simp] theorem setDisplayMode_gfx (m : DisplayMode) : (setDisplayMode m s).gfx = s.gfx := rfl
@[simp] theorem setDisplayMode_inWait (m : DisplayMode) : (setDisplayMode m s).inWait = s.inWait := rfl
@[simp] theorem setDisplayMode_hostInput (m : DisplayMode) : (setDisplayMode m s).hostInput = s.hostInput := rfl
@[simp] theorem setDisplayMode_hostOutput (m : DisplayMode) : (setDisplayMode m s).hostOutput = s.hostOutput := rfl

/-! ### setCursor -/

@[simp] theorem setCursor_mem (x : Fin 16) (y : Fin 4) : (setCursor x y s).mem = s.mem := rfl
@[simp] theorem setCursor_a (x : Fin 16) (y : Fin 4) : (setCursor x y s).a = s.a := rfl
@[simp] theorem setCursor_b (x : Fin 16) (y : Fin 4) : (setCursor x y s).b = s.b := rfl
@[simp] theorem setCursor_sp (x : Fin 16) (y : Fin 4) : (setCursor x y s).sp = s.sp := rfl
@[simp] theorem setCursor_pc (x : Fin 16) (y : Fin 4) : (setCursor x y s).pc = s.pc := rfl
@[simp] theorem setCursor_z (x : Fin 16) (y : Fin 4) : (setCursor x y s).z = s.z := rfl
@[simp] theorem setCursor_n (x : Fin 16) (y : Fin 4) : (setCursor x y s).n = s.n := rfl
@[simp] theorem setCursor_c (x : Fin 16) (y : Fin 4) : (setCursor x y s).c = s.c := rfl
@[simp] theorem setCursor_halted (x : Fin 16) (y : Fin 4) : (setCursor x y s).halted = s.halted := rfl
@[simp] theorem setCursor_haltReason (x : Fin 16) (y : Fin 4) : (setCursor x y s).haltReason = s.haltReason := rfl
@[simp] theorem setCursor_interruptEnabled (x : Fin 16) (y : Fin 4) : (setCursor x y s).interruptEnabled = s.interruptEnabled := rfl
@[simp] theorem setCursor_interruptVector (x : Fin 16) (y : Fin 4) : (setCursor x y s).interruptVector = s.interruptVector := rfl
@[simp] theorem setCursor_displayMode (x : Fin 16) (y : Fin 4) : (setCursor x y s).displayMode = s.displayMode := rfl
@[simp] theorem setCursor_cursorX (x : Fin 16) (y : Fin 4) : (setCursor x y s).cursorX = x := rfl
@[simp] theorem setCursor_cursorY (x : Fin 16) (y : Fin 4) : (setCursor x y s).cursorY = y := rfl
@[simp] theorem setCursor_scrollOffset (x : Fin 16) (y : Fin 4) : (setCursor x y s).scrollOffset = s.scrollOffset := rfl
@[simp] theorem setCursor_text (x : Fin 16) (y : Fin 4) : (setCursor x y s).text = s.text := rfl
@[simp] theorem setCursor_gfx (x : Fin 16) (y : Fin 4) : (setCursor x y s).gfx = s.gfx := rfl
@[simp] theorem setCursor_inWait (x : Fin 16) (y : Fin 4) : (setCursor x y s).inWait = s.inWait := rfl
@[simp] theorem setCursor_hostInput (x : Fin 16) (y : Fin 4) : (setCursor x y s).hostInput = s.hostInput := rfl
@[simp] theorem setCursor_hostOutput (x : Fin 16) (y : Fin 4) : (setCursor x y s).hostOutput = s.hostOutput := rfl

/-! ### setScroll -/

@[simp] theorem setScroll_mem (v : Fin 4) : (setScroll v s).mem = s.mem := rfl
@[simp] theorem setScroll_a (v : Fin 4) : (setScroll v s).a = s.a := rfl
@[simp] theorem setScroll_b (v : Fin 4) : (setScroll v s).b = s.b := rfl
@[simp] theorem setScroll_sp (v : Fin 4) : (setScroll v s).sp = s.sp := rfl
@[simp] theorem setScroll_pc (v : Fin 4) : (setScroll v s).pc = s.pc := rfl
@[simp] theorem setScroll_z (v : Fin 4) : (setScroll v s).z = s.z := rfl
@[simp] theorem setScroll_n (v : Fin 4) : (setScroll v s).n = s.n := rfl
@[simp] theorem setScroll_c (v : Fin 4) : (setScroll v s).c = s.c := rfl
@[simp] theorem setScroll_halted (v : Fin 4) : (setScroll v s).halted = s.halted := rfl
@[simp] theorem setScroll_haltReason (v : Fin 4) : (setScroll v s).haltReason = s.haltReason := rfl
@[simp] theorem setScroll_interruptEnabled (v : Fin 4) : (setScroll v s).interruptEnabled = s.interruptEnabled := rfl
@[simp] theorem setScroll_interruptVector (v : Fin 4) : (setScroll v s).interruptVector = s.interruptVector := rfl
@[simp] theorem setScroll_displayMode (v : Fin 4) : (setScroll v s).displayMode = s.displayMode := rfl
@[simp] theorem setScroll_cursorX (v : Fin 4) : (setScroll v s).cursorX = s.cursorX := rfl
@[simp] theorem setScroll_cursorY (v : Fin 4) : (setScroll v s).cursorY = s.cursorY := rfl
@[simp] theorem setScroll_scrollOffset (v : Fin 4) : (setScroll v s).scrollOffset = v := rfl
@[simp] theorem setScroll_text (v : Fin 4) : (setScroll v s).text = s.text := rfl
@[simp] theorem setScroll_gfx (v : Fin 4) : (setScroll v s).gfx = s.gfx := rfl
@[simp] theorem setScroll_inWait (v : Fin 4) : (setScroll v s).inWait = s.inWait := rfl
@[simp] theorem setScroll_hostInput (v : Fin 4) : (setScroll v s).hostInput = s.hostInput := rfl
@[simp] theorem setScroll_hostOutput (v : Fin 4) : (setScroll v s).hostOutput = s.hostOutput := rfl

/-! ### setText -/

@[simp] theorem setText_mem (t : TextGrid) : (setText t s).mem = s.mem := rfl
@[simp] theorem setText_a (t : TextGrid) : (setText t s).a = s.a := rfl
@[simp] theorem setText_b (t : TextGrid) : (setText t s).b = s.b := rfl
@[simp] theorem setText_sp (t : TextGrid) : (setText t s).sp = s.sp := rfl
@[simp] theorem setText_pc (t : TextGrid) : (setText t s).pc = s.pc := rfl
@[simp] theorem setText_z (t : TextGrid) : (setText t s).z = s.z := rfl
@[simp] theorem setText_n (t : TextGrid) : (setText t s).n = s.n := rfl
@[simp] theorem setText_c (t : TextGrid) : (setText t s).c = s.c := rfl
@[simp] theorem setText_halted (t : TextGrid) : (setText t s).halted = s.halted := rfl
@[simp] theorem setText_haltReason (t : TextGrid) : (setText t s).haltReason = s.haltReason := rfl
@[simp] theorem setText_interruptEnabled (t : TextGrid) : (setText t s).interruptEnabled = s.interruptEnabled := rfl
@[simp] theorem setText_interruptVector (t : TextGrid) : (setText t s).interruptVector = s.interruptVector := rfl
@[simp] theorem setText_displayMode (t : TextGrid) : (setText t s).displayMode = s.displayMode := rfl
@[simp] theorem setText_cursorX (t : TextGrid) : (setText t s).cursorX = s.cursorX := rfl
@[simp] theorem setText_cursorY (t : TextGrid) : (setText t s).cursorY = s.cursorY := rfl
@[simp] theorem setText_scrollOffset (t : TextGrid) : (setText t s).scrollOffset = s.scrollOffset := rfl
@[simp] theorem setText_text (t : TextGrid) : (setText t s).text = t := rfl
@[simp] theorem setText_gfx (t : TextGrid) : (setText t s).gfx = s.gfx := rfl
@[simp] theorem setText_inWait (t : TextGrid) : (setText t s).inWait = s.inWait := rfl
@[simp] theorem setText_hostInput (t : TextGrid) : (setText t s).hostInput = s.hostInput := rfl
@[simp] theorem setText_hostOutput (t : TextGrid) : (setText t s).hostOutput = s.hostOutput := rfl

/-! ### setGfx -/

@[simp] theorem setGfx_mem (g : GfxGrid) : (setGfx g s).mem = s.mem := rfl
@[simp] theorem setGfx_a (g : GfxGrid) : (setGfx g s).a = s.a := rfl
@[simp] theorem setGfx_b (g : GfxGrid) : (setGfx g s).b = s.b := rfl
@[simp] theorem setGfx_sp (g : GfxGrid) : (setGfx g s).sp = s.sp := rfl
@[simp] theorem setGfx_pc (g : GfxGrid) : (setGfx g s).pc = s.pc := rfl
@[simp] theorem setGfx_z (g : GfxGrid) : (setGfx g s).z = s.z := rfl
@[simp] theorem setGfx_n (g : GfxGrid) : (setGfx g s).n = s.n := rfl
@[simp] theorem setGfx_c (g : GfxGrid) : (setGfx g s).c = s.c := rfl
@[simp] theorem setGfx_halted (g : GfxGrid) : (setGfx g s).halted = s.halted := rfl
@[simp] theorem setGfx_haltReason (g : GfxGrid) : (setGfx g s).haltReason = s.haltReason := rfl
@[simp] theorem setGfx_interruptEnabled (g : GfxGrid) : (setGfx g s).interruptEnabled = s.interruptEnabled := rfl
@[simp] theorem setGfx_interruptVector (g : GfxGrid) : (setGfx g s).interruptVector = s.interruptVector := rfl
@[simp] theorem setGfx_displayMode (g : GfxGrid) : (setGfx g s).displayMode = s.displayMode := rfl
@[simp] theorem setGfx_cursorX (g : GfxGrid) : (setGfx g s).cursorX = s.cursorX := rfl
@[simp] theorem setGfx_cursorY (g : GfxGrid) : (setGfx g s).cursorY = s.cursorY := rfl
@[simp] theorem setGfx_scrollOffset (g : GfxGrid) : (setGfx g s).scrollOffset = s.scrollOffset := rfl
@[simp] theorem setGfx_text (g : GfxGrid) : (setGfx g s).text = s.text := rfl
@[simp] theorem setGfx_gfx (g : GfxGrid) : (setGfx g s).gfx = g := rfl
@[simp] theorem setGfx_inWait (g : GfxGrid) : (setGfx g s).inWait = s.inWait := rfl
@[simp] theorem setGfx_hostInput (g : GfxGrid) : (setGfx g s).hostInput = s.hostInput := rfl
@[simp] theorem setGfx_hostOutput (g : GfxGrid) : (setGfx g s).hostOutput = s.hostOutput := rfl

/-! ### setInWait -/

@[simp] theorem setInWait_mem (w : InWait) : (setInWait w s).mem = s.mem := rfl
@[simp] theorem setInWait_a (w : InWait) : (setInWait w s).a = s.a := rfl
@[simp] theorem setInWait_b (w : InWait) : (setInWait w s).b = s.b := rfl
@[simp] theorem setInWait_sp (w : InWait) : (setInWait w s).sp = s.sp := rfl
@[simp] theorem setInWait_pc (w : InWait) : (setInWait w s).pc = s.pc := rfl
@[simp] theorem setInWait_z (w : InWait) : (setInWait w s).z = s.z := rfl
@[simp] theorem setInWait_n (w : InWait) : (setInWait w s).n = s.n := rfl
@[simp] theorem setInWait_c (w : InWait) : (setInWait w s).c = s.c := rfl
@[simp] theorem setInWait_halted (w : InWait) : (setInWait w s).halted = s.halted := rfl
@[simp] theorem setInWait_haltReason (w : InWait) : (setInWait w s).haltReason = s.haltReason := rfl
@[simp] theorem setInWait_interruptEnabled (w : InWait) : (setInWait w s).interruptEnabled = s.interruptEnabled := rfl
@[simp] theorem setInWait_interruptVector (w : InWait) : (setInWait w s).interruptVector = s.interruptVector := rfl
@[simp] theorem setInWait_displayMode (w : InWait) : (setInWait w s).displayMode = s.displayMode := rfl
@[simp] theorem setInWait_cursorX (w : InWait) : (setInWait w s).cursorX = s.cursorX := rfl
@[simp] theorem setInWait_cursorY (w : InWait) : (setInWait w s).cursorY = s.cursorY := rfl
@[simp] theorem setInWait_scrollOffset (w : InWait) : (setInWait w s).scrollOffset = s.scrollOffset := rfl
@[simp] theorem setInWait_text (w : InWait) : (setInWait w s).text = s.text := rfl
@[simp] theorem setInWait_gfx (w : InWait) : (setInWait w s).gfx = s.gfx := rfl
@[simp] theorem setInWait_inWait (w : InWait) : (setInWait w s).inWait = w := rfl
@[simp] theorem setInWait_hostInput (w : InWait) : (setInWait w s).hostInput = s.hostInput := rfl
@[simp] theorem setInWait_hostOutput (w : InWait) : (setInWait w s).hostOutput = s.hostOutput := rfl

/-! ### setHostInput -/

@[simp] theorem setHostInput_mem (q : List (Option Byte)) : (setHostInput q s).mem = s.mem := rfl
@[simp] theorem setHostInput_a (q : List (Option Byte)) : (setHostInput q s).a = s.a := rfl
@[simp] theorem setHostInput_b (q : List (Option Byte)) : (setHostInput q s).b = s.b := rfl
@[simp] theorem setHostInput_sp (q : List (Option Byte)) : (setHostInput q s).sp = s.sp := rfl
@[simp] theorem setHostInput_pc (q : List (Option Byte)) : (setHostInput q s).pc = s.pc := rfl
@[simp] theorem setHostInput_z (q : List (Option Byte)) : (setHostInput q s).z = s.z := rfl
@[simp] theorem setHostInput_n (q : List (Option Byte)) : (setHostInput q s).n = s.n := rfl
@[simp] theorem setHostInput_c (q : List (Option Byte)) : (setHostInput q s).c = s.c := rfl
@[simp] theorem setHostInput_halted (q : List (Option Byte)) : (setHostInput q s).halted = s.halted := rfl
@[simp] theorem setHostInput_haltReason (q : List (Option Byte)) : (setHostInput q s).haltReason = s.haltReason := rfl
@[simp] theorem setHostInput_interruptEnabled (q : List (Option Byte)) : (setHostInput q s).interruptEnabled = s.interruptEnabled := rfl
@[simp] theorem setHostInput_interruptVector (q : List (Option Byte)) : (setHostInput q s).interruptVector = s.interruptVector := rfl
@[simp] theorem setHostInput_displayMode (q : List (Option Byte)) : (setHostInput q s).displayMode = s.displayMode := rfl
@[simp] theorem setHostInput_cursorX (q : List (Option Byte)) : (setHostInput q s).cursorX = s.cursorX := rfl
@[simp] theorem setHostInput_cursorY (q : List (Option Byte)) : (setHostInput q s).cursorY = s.cursorY := rfl
@[simp] theorem setHostInput_scrollOffset (q : List (Option Byte)) : (setHostInput q s).scrollOffset = s.scrollOffset := rfl
@[simp] theorem setHostInput_text (q : List (Option Byte)) : (setHostInput q s).text = s.text := rfl
@[simp] theorem setHostInput_gfx (q : List (Option Byte)) : (setHostInput q s).gfx = s.gfx := rfl
@[simp] theorem setHostInput_inWait (q : List (Option Byte)) : (setHostInput q s).inWait = s.inWait := rfl
@[simp] theorem setHostInput_hostInput (q : List (Option Byte)) : (setHostInput q s).hostInput = q := rfl
@[simp] theorem setHostInput_hostOutput (q : List (Option Byte)) : (setHostInput q s).hostOutput = s.hostOutput := rfl

/-! ### setHostOutput -/

@[simp] theorem setHostOutput_mem (q : List Byte) : (setHostOutput q s).mem = s.mem := rfl
@[simp] theorem setHostOutput_a (q : List Byte) : (setHostOutput q s).a = s.a := rfl
@[simp] theorem setHostOutput_b (q : List Byte) : (setHostOutput q s).b = s.b := rfl
@[simp] theorem setHostOutput_sp (q : List Byte) : (setHostOutput q s).sp = s.sp := rfl
@[simp] theorem setHostOutput_pc (q : List Byte) : (setHostOutput q s).pc = s.pc := rfl
@[simp] theorem setHostOutput_z (q : List Byte) : (setHostOutput q s).z = s.z := rfl
@[simp] theorem setHostOutput_n (q : List Byte) : (setHostOutput q s).n = s.n := rfl
@[simp] theorem setHostOutput_c (q : List Byte) : (setHostOutput q s).c = s.c := rfl
@[simp] theorem setHostOutput_halted (q : List Byte) : (setHostOutput q s).halted = s.halted := rfl
@[simp] theorem setHostOutput_haltReason (q : List Byte) : (setHostOutput q s).haltReason = s.haltReason := rfl
@[simp] theorem setHostOutput_interruptEnabled (q : List Byte) : (setHostOutput q s).interruptEnabled = s.interruptEnabled := rfl
@[simp] theorem setHostOutput_interruptVector (q : List Byte) : (setHostOutput q s).interruptVector = s.interruptVector := rfl
@[simp] theorem setHostOutput_displayMode (q : List Byte) : (setHostOutput q s).displayMode = s.displayMode := rfl
@[simp] theorem setHostOutput_cursorX (q : List Byte) : (setHostOutput q s).cursorX = s.cursorX := rfl
@[simp] theorem setHostOutput_cursorY (q : List Byte) : (setHostOutput q s).cursorY = s.cursorY := rfl
@[simp] theorem setHostOutput_scrollOffset (q : List Byte) : (setHostOutput q s).scrollOffset = s.scrollOffset := rfl
@[simp] theorem setHostOutput_text (q : List Byte) : (setHostOutput q s).text = s.text := rfl
@[simp] theorem setHostOutput_gfx (q : List Byte) : (setHostOutput q s).gfx = s.gfx := rfl
@[simp] theorem setHostOutput_inWait (q : List Byte) : (setHostOutput q s).inWait = s.inWait := rfl
@[simp] theorem setHostOutput_hostInput (q : List Byte) : (setHostOutput q s).hostInput = s.hostInput := rfl
@[simp] theorem setHostOutput_hostOutput (q : List Byte) : (setHostOutput q s).hostOutput = q := rfl

/-! ### setInterruptEnabled -/

@[simp] theorem setInterruptEnabled_mem (e : Bool) : (setInterruptEnabled e s).mem = s.mem := rfl
@[simp] theorem setInterruptEnabled_a (e : Bool) : (setInterruptEnabled e s).a = s.a := rfl
@[simp] theorem setInterruptEnabled_b (e : Bool) : (setInterruptEnabled e s).b = s.b := rfl
@[simp] theorem setInterruptEnabled_sp (e : Bool) : (setInterruptEnabled e s).sp = s.sp := rfl
@[simp] theorem setInterruptEnabled_pc (e : Bool) : (setInterruptEnabled e s).pc = s.pc := rfl
@[simp] theorem setInterruptEnabled_z (e : Bool) : (setInterruptEnabled e s).z = s.z := rfl
@[simp] theorem setInterruptEnabled_n (e : Bool) : (setInterruptEnabled e s).n = s.n := rfl
@[simp] theorem setInterruptEnabled_c (e : Bool) : (setInterruptEnabled e s).c = s.c := rfl
@[simp] theorem setInterruptEnabled_halted (e : Bool) : (setInterruptEnabled e s).halted = s.halted := rfl
@[simp] theorem setInterruptEnabled_haltReason (e : Bool) : (setInterruptEnabled e s).haltReason = s.haltReason := rfl
@[simp] theorem setInterruptEnabled_interruptEnabled (e : Bool) : (setInterruptEnabled e s).interruptEnabled = e := rfl
@[simp] theorem setInterruptEnabled_interruptVector (e : Bool) : (setInterruptEnabled e s).interruptVector = s.interruptVector := rfl
@[simp] theorem setInterruptEnabled_displayMode (e : Bool) : (setInterruptEnabled e s).displayMode = s.displayMode := rfl
@[simp] theorem setInterruptEnabled_cursorX (e : Bool) : (setInterruptEnabled e s).cursorX = s.cursorX := rfl
@[simp] theorem setInterruptEnabled_cursorY (e : Bool) : (setInterruptEnabled e s).cursorY = s.cursorY := rfl
@[simp] theorem setInterruptEnabled_scrollOffset (e : Bool) : (setInterruptEnabled e s).scrollOffset = s.scrollOffset := rfl
@[simp] theorem setInterruptEnabled_text (e : Bool) : (setInterruptEnabled e s).text = s.text := rfl
@[simp] theorem setInterruptEnabled_gfx (e : Bool) : (setInterruptEnabled e s).gfx = s.gfx := rfl
@[simp] theorem setInterruptEnabled_inWait (e : Bool) : (setInterruptEnabled e s).inWait = s.inWait := rfl
@[simp] theorem setInterruptEnabled_hostInput (e : Bool) : (setInterruptEnabled e s).hostInput = s.hostInput := rfl
@[simp] theorem setInterruptEnabled_hostOutput (e : Bool) : (setInterruptEnabled e s).hostOutput = s.hostOutput := rfl

/-! ### setInterruptVector -/

@[simp] theorem setInterruptVector_mem (v : Byte) : (setInterruptVector v s).mem = s.mem := rfl
@[simp] theorem setInterruptVector_a (v : Byte) : (setInterruptVector v s).a = s.a := rfl
@[simp] theorem setInterruptVector_b (v : Byte) : (setInterruptVector v s).b = s.b := rfl
@[simp] theorem setInterruptVector_sp (v : Byte) : (setInterruptVector v s).sp = s.sp := rfl
@[simp] theorem setInterruptVector_pc (v : Byte) : (setInterruptVector v s).pc = s.pc := rfl
@[simp] theorem setInterruptVector_z (v : Byte) : (setInterruptVector v s).z = s.z := rfl
@[simp] theorem setInterruptVector_n (v : Byte) : (setInterruptVector v s).n = s.n := rfl
@[simp] theorem setInterruptVector_c (v : Byte) : (setInterruptVector v s).c = s.c := rfl
@[simp] theorem setInterruptVector_halted (v : Byte) : (setInterruptVector v s).halted = s.halted := rfl
@[simp] theorem setInterruptVector_haltReason (v : Byte) : (setInterruptVector v s).haltReason = s.haltReason := rfl
@[simp] theorem setInterruptVector_interruptEnabled (v : Byte) : (setInterruptVector v s).interruptEnabled = s.interruptEnabled := rfl
@[simp] theorem setInterruptVector_interruptVector (v : Byte) : (setInterruptVector v s).interruptVector = v := rfl
@[simp] theorem setInterruptVector_displayMode (v : Byte) : (setInterruptVector v s).displayMode = s.displayMode := rfl
@[simp] theorem setInterruptVector_cursorX (v : Byte) : (setInterruptVector v s).cursorX = s.cursorX := rfl
@[simp] theorem setInterruptVector_cursorY (v : Byte) : (setInterruptVector v s).cursorY = s.cursorY := rfl
@[simp] theorem setInterruptVector_scrollOffset (v : Byte) : (setInterruptVector v s).scrollOffset = s.scrollOffset := rfl
@[simp] theorem setInterruptVector_text (v : Byte) : (setInterruptVector v s).text = s.text := rfl
@[simp] theorem setInterruptVector_gfx (v : Byte) : (setInterruptVector v s).gfx = s.gfx := rfl
@[simp] theorem setInterruptVector_inWait (v : Byte) : (setInterruptVector v s).inWait = s.inWait := rfl
@[simp] theorem setInterruptVector_hostInput (v : Byte) : (setInterruptVector v s).hostInput = s.hostInput := rfl
@[simp] theorem setInterruptVector_hostOutput (v : Byte) : (setInterruptVector v s).hostOutput = s.hostOutput := rfl

/-! ### updateZN, advance and jumpTo -/

@[simp] theorem updateZN_mem : (updateZN s).mem = s.mem := rfl
@[simp] theorem updateZN_a : (updateZN s).a = s.a := rfl
@[simp] theorem updateZN_b : (updateZN s).b = s.b := rfl
@[simp] theorem updateZN_sp : (updateZN s).sp = s.sp := rfl
@[simp] theorem updateZN_pc : (updateZN s).pc = s.pc := rfl
@[simp] theorem updateZN_z : (updateZN s).z = zeroOf s.a := rfl
@[simp] theorem updateZN_n : (updateZN s).n = negativeOf s.a := rfl
@[simp] theorem updateZN_c : (updateZN s).c = s.c := rfl
@[simp] theorem updateZN_halted : (updateZN s).halted = s.halted := rfl
@[simp] theorem updateZN_haltReason : (updateZN s).haltReason = s.haltReason := rfl
@[simp] theorem updateZN_interruptEnabled : (updateZN s).interruptEnabled = s.interruptEnabled := rfl
@[simp] theorem updateZN_interruptVector : (updateZN s).interruptVector = s.interruptVector := rfl
@[simp] theorem updateZN_displayMode : (updateZN s).displayMode = s.displayMode := rfl
@[simp] theorem updateZN_cursorX : (updateZN s).cursorX = s.cursorX := rfl
@[simp] theorem updateZN_cursorY : (updateZN s).cursorY = s.cursorY := rfl
@[simp] theorem updateZN_scrollOffset : (updateZN s).scrollOffset = s.scrollOffset := rfl
@[simp] theorem updateZN_text : (updateZN s).text = s.text := rfl
@[simp] theorem updateZN_gfx : (updateZN s).gfx = s.gfx := rfl
@[simp] theorem updateZN_inWait : (updateZN s).inWait = s.inWait := rfl
@[simp] theorem updateZN_hostInput : (updateZN s).hostInput = s.hostInput := rfl
@[simp] theorem updateZN_hostOutput : (updateZN s).hostOutput = s.hostOutput := rfl

@[simp] theorem advance_mem : (advance s).mem = s.mem := rfl
@[simp] theorem advance_a : (advance s).a = s.a := rfl
@[simp] theorem advance_b : (advance s).b = s.b := rfl
@[simp] theorem advance_sp : (advance s).sp = s.sp := rfl
@[simp] theorem advance_pc : (advance s).pc = pcNext s.pc := rfl
@[simp] theorem advance_z : (advance s).z = s.z := rfl
@[simp] theorem advance_n : (advance s).n = s.n := rfl
@[simp] theorem advance_c : (advance s).c = s.c := rfl
@[simp] theorem advance_halted : (advance s).halted = s.halted := rfl
@[simp] theorem advance_haltReason : (advance s).haltReason = s.haltReason := rfl
@[simp] theorem advance_interruptEnabled : (advance s).interruptEnabled = s.interruptEnabled := rfl
@[simp] theorem advance_interruptVector : (advance s).interruptVector = s.interruptVector := rfl
@[simp] theorem advance_displayMode : (advance s).displayMode = s.displayMode := rfl
@[simp] theorem advance_cursorX : (advance s).cursorX = s.cursorX := rfl
@[simp] theorem advance_cursorY : (advance s).cursorY = s.cursorY := rfl
@[simp] theorem advance_scrollOffset : (advance s).scrollOffset = s.scrollOffset := rfl
@[simp] theorem advance_text : (advance s).text = s.text := rfl
@[simp] theorem advance_gfx : (advance s).gfx = s.gfx := rfl
@[simp] theorem advance_inWait : (advance s).inWait = s.inWait := rfl
@[simp] theorem advance_hostInput : (advance s).hostInput = s.hostInput := rfl
@[simp] theorem advance_hostOutput : (advance s).hostOutput = s.hostOutput := rfl

@[simp] theorem jumpTo_mem (t : Byte) : (jumpTo t s).mem = s.mem := rfl
@[simp] theorem jumpTo_a (t : Byte) : (jumpTo t s).a = s.a := rfl
@[simp] theorem jumpTo_b (t : Byte) : (jumpTo t s).b = s.b := rfl
@[simp] theorem jumpTo_sp (t : Byte) : (jumpTo t s).sp = s.sp := rfl
@[simp] theorem jumpTo_pc (t : Byte) : (jumpTo t s).pc = pcOfByte t := rfl
@[simp] theorem jumpTo_z (t : Byte) : (jumpTo t s).z = s.z := rfl
@[simp] theorem jumpTo_n (t : Byte) : (jumpTo t s).n = s.n := rfl
@[simp] theorem jumpTo_c (t : Byte) : (jumpTo t s).c = s.c := rfl
@[simp] theorem jumpTo_halted (t : Byte) : (jumpTo t s).halted = s.halted := rfl
@[simp] theorem jumpTo_haltReason (t : Byte) : (jumpTo t s).haltReason = s.haltReason := rfl
@[simp] theorem jumpTo_interruptEnabled (t : Byte) : (jumpTo t s).interruptEnabled = s.interruptEnabled := rfl
@[simp] theorem jumpTo_interruptVector (t : Byte) : (jumpTo t s).interruptVector = s.interruptVector := rfl
@[simp] theorem jumpTo_displayMode (t : Byte) : (jumpTo t s).displayMode = s.displayMode := rfl
@[simp] theorem jumpTo_cursorX (t : Byte) : (jumpTo t s).cursorX = s.cursorX := rfl
@[simp] theorem jumpTo_cursorY (t : Byte) : (jumpTo t s).cursorY = s.cursorY := rfl
@[simp] theorem jumpTo_scrollOffset (t : Byte) : (jumpTo t s).scrollOffset = s.scrollOffset := rfl
@[simp] theorem jumpTo_text (t : Byte) : (jumpTo t s).text = s.text := rfl
@[simp] theorem jumpTo_gfx (t : Byte) : (jumpTo t s).gfx = s.gfx := rfl
@[simp] theorem jumpTo_inWait (t : Byte) : (jumpTo t s).inWait = s.inWait := rfl
@[simp] theorem jumpTo_hostInput (t : Byte) : (jumpTo t s).hostInput = s.hostInput := rfl
@[simp] theorem jumpTo_hostOutput (t : Byte) : (jumpTo t s).hostOutput = s.hostOutput := rfl

end Sys2Proof.Machine
end

