-- ==== Sys2Proof/Laws/Ops.lean ====
section
/-! SUPPORT. One lemma per shared operation that says everything it can do. -/

namespace Sys2Proof.Machine

variable {s s' t : State} {v : Byte} {r : HaltReason}

/-! ## The program counter -/

theorem pcAddr?_end : pcAddr? pcEnd = none := rfl

/-- PC is END, or it is the value of one byte. -/
theorem pc_cases (p : Fin 257) : (p = pcEnd ∧ pcAddr? p = none) ∨
    ∃ q : Byte, p = pcOfByte q ∧ pcAddr? p = some q := by
  by_cases h : p.val < 256
  · refine .inr ⟨BitVec.ofNat 8 p.val, ?_, by simp [pcAddr?, h]⟩
    apply Fin.ext
    simp [pcOfByte, Nat.mod_eq_of_lt h]
  · have : p = pcEnd := by apply Fin.ext; have := p.isLt; simp only [pcEnd]; show p.val = 256; omega
    exact .inl ⟨this, by simp [pcAddr?, h]⟩

@[simp] theorem pcAddr?_pcOfByte (q : Byte) : pcAddr? (pcOfByte q) = some q := by
  have : q.toNat < 256 := q.isLt
  simp [pcAddr?, pcOfByte, this]

theorem pcAddr?_eq_some {p : Fin 257} {q : Byte} (h : pcAddr? p = some q) : p = pcOfByte q := by
  obtain ⟨-, h'⟩ | ⟨q', rfl, h'⟩ := pc_cases p
  · rw [h] at h'; cases h'
  · rw [h] at h'; cases h'; rfl

theorem pcAddr?_eq_none {p : Fin 257} (h : pcAddr? p = none) : p = pcEnd := by
  obtain ⟨h', -⟩ | ⟨q', rfl, h'⟩ := pc_cases p
  · exact h'
  · rw [h] at h'; cases h'

theorem pcNext_val {p : Fin 257} (h : p.val < 256) : (pcNext p).val = p.val + 1 := by simp [pcNext, h]

@[simp] theorem pcOfByte_val (q : Byte) : (pcOfByte q).val = q.toNat := rfl

theorem pcOfByte_ne_end (q : Byte) : pcOfByte q ≠ pcEnd := by
  intro h
  have h1 : q.toNat = 256 := congrArg Fin.val h
  have h2 : q.toNat < 256 := q.isLt
  omega

/-! ## Halts and the end of a step -/

theorem raiseHalt_running (r : HaltReason) (h : s.halted = false) : raiseHalt r s = setHalt true r s := by
  simp [raiseHalt, h]

theorem raiseHalt_halted (r : HaltReason) (h : s.halted = true) : raiseHalt r s = s := by
  simp [raiseHalt, h]

/-- A completed step leaves Z and N in agreement with A. -/
theorem updateZN_flagsAgree (s : State) : (updateZN s).flagsAgree := ⟨rfl, rfl⟩

theorem updateZN_of_flagsAgree (h : s.flagsAgree) : updateZN s = s := by
  obtain ⟨hz, hn⟩ := h
  simp only [updateZN, setZN, ← hz, ← hn]

theorem endStep_next (h : endStep s = .next t) : t = updateZN s := by cases h; rfl

theorem haltStep_next (h : haltStep r s = .next t) : t = updateZN (raiseHalt r s) := by cases h; rfl

/-! ## The stack -/

/-- What `Push` can do (R50). -/
theorem push_cases (v : Byte) (s : State) :
    (s.sp = 0#8 ∧ push v s = .error .stackOverflow) ∨
    (s.sp ≠ 0#8 ∧ push v s = .ok (setMem (s.mem.write (s.sp - 1#8) v) (setSp (s.sp - 1#8) s))) := by
  by_cases h : s.sp = 0#8
  · exact .inl ⟨h, by simp [push, h]⟩
  · exact .inr ⟨h, if_neg h⟩

/-- What `Pop` can do (R51). -/
theorem pop_cases (s : State) :
    (s.sp = 255#8 ∧ pop s = .error .stackUnderflow) ∨
    (s.sp ≠ 255#8 ∧ pop s = .ok (s.mem.read s.sp, setSp (s.sp + 1#8) s)) := by
  by_cases h : s.sp = 255#8
  · exact .inl ⟨h, by simp [pop, h]⟩
  · exact .inr ⟨h, if_neg h⟩

/-- What a return can do (R144). -/
theorem returnFromStack_cases (s : State) :
    (s.sp = 255#8 ∧ returnFromStack s = .error .stackUnderflow) ∨
    (s.sp ≠ 255#8 ∧ returnFromStack s = .ok (jumpTo (s.mem.read s.sp) (setSp (s.sp + 1#8) s))) := by
  obtain ⟨h, hp⟩ | ⟨h, hp⟩ := pop_cases s
  · exact .inl ⟨h, by simp [returnFromStack, hp]⟩
  · exact .inr ⟨h, by simp [returnFromStack, hp]⟩

/-- What an interrupt request can do (R235, R236). -/
theorem interruptEntry_cases (s : State) :
    ((s.halted = true ∨ s.interruptEnabled = false) ∧ interruptEntry s = s) ∨
    (s.halted = false ∧ s.interruptEnabled = true ∧ s.pc = pcEnd ∧
      interruptEntry s = setHalt true .memoryOutOfRange s) ∨
    (s.halted = false ∧ s.interruptEnabled = true ∧ s.pc ≠ pcEnd ∧ s.sp = 0#8 ∧
      interruptEntry s = setHalt true .stackOverflow s) ∨
    (∃ p : Byte, s.halted = false ∧ s.interruptEnabled = true ∧ s.pc = pcOfByte p ∧ s.sp ≠ 0#8 ∧
      interruptEntry s = jumpTo ((s.mem.write (s.sp - 1#8) p).read s.interruptVector)
        (setMem (s.mem.write (s.sp - 1#8) p) (setSp (s.sp - 1#8) s))) := by
  by_cases hh : s.halted = true
  · exact .inl ⟨.inl hh, by simp [interruptEntry, hh]⟩
  by_cases he : s.interruptEnabled = false
  · exact .inl ⟨.inr he, by simp [interruptEntry, he]⟩
  rw [Bool.not_eq_true] at hh
  rw [Bool.not_eq_false] at he
  obtain ⟨hp, hn⟩ | ⟨p, hp, hn⟩ := pc_cases s.pc
  · exact .inr (.inl ⟨hh, he, hp, by simp [interruptEntry, hh, he, hn, raiseHalt]⟩)
  · obtain ⟨h0, hpush⟩ | ⟨h0, hpush⟩ := push_cases p s
    · exact .inr (.inr (.inl ⟨hh, he, by rw [hp]; exact pcOfByte_ne_end p, h0,
        by simp [interruptEntry, hh, he, hn, hpush, raiseHalt]⟩))
    · exact .inr (.inr (.inr ⟨p, hh, he, hp, h0, by simp [interruptEntry, hh, he, hn, hpush]⟩))

/-! ## The host's channels -/

@[simp] theorem takeAnswer_eq (inp : Option Byte) (s : State) :
    takeAnswer inp s = setA (answerValue inp) s := rfl

@[simp] theorem answerValue_eq (inp : Option Byte) : answerValue inp = inp.getD 0x00 := by
  cases inp <;> rfl

/-! ## The grids -/

theorem cell_put (g : TextGrid) (y y' : Fin 4) (x x' : Fin 16) (v : Byte) :
    TextGrid.cell (TextGrid.put g y x v) y' x' = if y' = y ∧ x' = x then v else TextGrid.cell g y' x' := by
  simp only [TextGrid.cell, TextGrid.put, Vector.get_eq_getElem, Vector.getElem_set, Fin.ext_iff]
  by_cases hy : y.val = y'.val
  · by_cases hx : x.val = x'.val
    · simp [hy, hx]
    · simp [hy, hx, Ne.symm hx]
  · simp [hy, Ne.symm hy]

theorem pixel_light (g : GfxGrid) (y y' x x' : Fin 32) :
    GfxGrid.pixel (GfxGrid.light g y x) y' x' = (decide (y' = y ∧ x' = x) || GfxGrid.pixel g y' x') := by
  simp only [GfxGrid.pixel, GfxGrid.light, Vector.get_eq_getElem, Vector.getElem_set, Fin.ext_iff]
  by_cases hy : y.val = y'.val
  · by_cases hx : x.val = x'.val
    · simp [hy, hx]
    · simp [hy, hx, Ne.symm hx]
  · simp [hy, Ne.symm hy]

@[simp] theorem cell_blank (y : Fin 4) (x : Fin 16) : TextGrid.cell blankText y x = 0x20 := by
  simp [TextGrid.cell, blankText, Vector.get_eq_getElem]

@[simp] theorem pixel_blank (y x : Fin 32) : GfxGrid.pixel blankGfx y x = false := by
  simp [GfxGrid.pixel, blankGfx, Vector.get_eq_getElem]

end Sys2Proof.Machine
end

