-- ==== Sys2Proof/Laws/Exec.lean ====
section
/-! SUPPORT. What each shared meaning, `exec` and `step` can do, said once. -/

namespace Sys2Proof.Machine

/-- What a relative jump can do (R140 to R142). -/
theorem branch_cases (taken : Bool) (s : State) :
    (s.pc = pcEnd ∧ branch taken s = haltStep .memoryOutOfRange s) ∨
    (∃ p : Byte, s.pc = pcOfByte p ∧ taken = true ∧
      branch taken s = .next (updateZN (jumpTo (relTarget p (s.mem.read p)) s))) ∨
    (∃ p : Byte, s.pc = pcOfByte p ∧ taken = false ∧ branch taken s = .next (updateZN (advance s))) := by
  obtain ⟨h, hn⟩ | ⟨p, h, hn⟩ := pc_cases s.pc
  · exact .inl ⟨h, by simp [branch, operandAddr?, hn]⟩
  · cases taken
    · exact .inr (.inr ⟨p, h, rfl, by simp [branch, operandAddr?, hn, endStep]⟩)
    · exact .inr (.inl ⟨p, h, rfl, by simp [branch, operandAddr?, hn, endStep]⟩)

/-- What LOAD can do (R110). -/
theorem execLoad_cases (s : State) :
    (s.pc = pcEnd ∧ execLoad s = haltStep .memoryOutOfRange s) ∨
    (∃ p : Byte, s.pc = pcOfByte p ∧ execLoad s = .next (updateZN (advance (setA (s.mem.read p) s)))) := by
  obtain ⟨h, hn⟩ | ⟨p, h, hn⟩ := pc_cases s.pc
  · exact .inl ⟨h, by simp [execLoad, operandAddr?, hn]⟩
  · exact .inr ⟨p, h, by simp [execLoad, operandAddr?, hn, endStep]⟩

/-- The state after CALL's push and jump: the target is read after the push (R143). -/
def afterCall (h : Nibble) (p : Byte) (s : State) : State :=
  let m := s.mem.write (s.sp - 1#8) (returnAddr p)
  jumpTo (callTarget h (m.read p)) (setMem m (setSp (s.sp - 1#8) s))

/-- What CALL can do (R143). -/
theorem execCall_cases (h : Nibble) (s : State) :
    (s.pc = pcEnd ∧ execCall h s = haltStep .memoryOutOfRange s) ∨
    (s.pc ≠ pcEnd ∧ s.sp = 0#8 ∧ execCall h s = haltStep .stackOverflow s) ∨
    (∃ p : Byte, s.pc = pcOfByte p ∧ s.sp ≠ 0#8 ∧ execCall h s = .next (updateZN (afterCall h p s))) := by
  obtain ⟨hp, hn⟩ | ⟨p, hp, hn⟩ := pc_cases s.pc
  · exact .inl ⟨hp, by simp [execCall, operandAddr?, hn]⟩
  · obtain ⟨h0, hpush⟩ | ⟨h0, hpush⟩ := push_cases (returnAddr p) s
    · exact .inr (.inl ⟨by rw [hp]; exact pcOfByte_ne_end p, h0, by simp [execCall, operandAddr?, hn, hpush]⟩)
    · exact .inr (.inr ⟨p, hp, h0, by simp [execCall, operandAddr?, hn, hpush, endStep, afterCall]⟩)

/-- What RET can do (R144). -/
theorem execRet_cases (s : State) :
    (s.sp = 255#8 ∧ execRet s = haltStep .stackUnderflow s) ∨
    (s.sp ≠ 255#8 ∧ execRet s = .next (updateZN (jumpTo (s.mem.read s.sp) (setSp (s.sp + 1#8) s)))) := by
  obtain ⟨h, hr⟩ | ⟨h, hr⟩ := returnFromStack_cases s
  · exact .inl ⟨h, by simp [execRet, hr]⟩
  · exact .inr ⟨h, by simp [execRet, hr, endStep]⟩

/-- What IN can do (R160, R97). -/
theorem execIn_cases (s : State) :
    (s.hostInput = [] ∧ execIn s = .next (setInWait .execute s)) ∨
    (∃ inp rest, s.hostInput = inp :: rest ∧
      execIn s = .next (updateZN (takeAnswer inp (setHostInput rest s)))) := by
  cases h : s.hostInput with
  | nil => exact .inl ⟨rfl, by simp [execIn, h]⟩
  | cons inp rest => exact .inr ⟨inp, rest, rfl, by simp [execIn, h, endStep]⟩

/-- DISP in each mode (R163). -/
theorem execDisp_cases (s : State) :
    (s.displayMode = .text ∧ execDisp s = .next (updateZN
      (setCursor (cursorNextX s.cursorX) (cursorNextY s.cursorX s.cursorY)
        (setText (TextGrid.put s.text s.cursorY s.cursorX s.a) s)))) ∨
    (s.displayMode = .graphics ∧ execDisp s = .next (updateZN s)) := by
  cases h : s.displayMode
  · exact .inl ⟨rfl, by simp [execDisp, h, endStep]⟩
  · exact .inr ⟨rfl, by simp [execDisp, h, endStep]⟩

/-- CLR in each mode (R165). -/
theorem execClr_cases (s : State) :
    (s.displayMode = .text ∧ execClr s = .next (updateZN (setCursor 0 0 (setText blankText s)))) ∨
    (s.displayMode = .graphics ∧ execClr s = .next (updateZN (setCursor 0 0 (setGfx blankGfx s)))) := by
  cases h : s.displayMode
  · exact .inl ⟨rfl, by simp [execClr, h, endStep]⟩
  · exact .inr ⟨rfl, by simp [execClr, h, endStep]⟩

/-- SCROLL in each mode (R168). -/
theorem execScroll_cases (s : State) :
    (s.displayMode = .text ∧ execScroll s = .next (updateZN (setScroll (scrollBy s.scrollOffset s.a) s))) ∨
    (s.displayMode = .graphics ∧ execScroll s = .next (updateZN s)) := by
  cases h : s.displayMode
  · exact .inl ⟨rfl, by simp [execScroll, h, endStep]⟩
  · exact .inr ⟨rfl, by simp [execScroll, h, endStep]⟩

/-- Every execute phase answers a next state: the machine has no fault and no refusal. -/
theorem exec_answers (i : Instr) (s : State) : ∃ t, exec i s = .next t := by
  have hb (taken : Bool) : ∃ t, branch taken s = .next t := by
    obtain ⟨-, h⟩ | ⟨p, -, -, h⟩ | ⟨p, -, -, h⟩ := branch_cases taken s <;> exact ⟨_, h⟩
  cases i with
  | load => obtain ⟨-, h⟩ | ⟨p, -, h⟩ := execLoad_cases s <;> exact ⟨_, h⟩
  | jmp => exact hb true
  | jz => exact hb s.z
  | jnz => exact hb (!s.z)
  | call h => obtain ⟨-, h⟩ | ⟨-, -, h⟩ | ⟨p, -, -, h⟩ := execCall_cases h s <;> exact ⟨_, h⟩
  | ret => obtain ⟨-, h⟩ | ⟨-, h⟩ := execRet_cases s <;> exact ⟨_, h⟩
  | inp => obtain ⟨-, h⟩ | ⟨inp, rest, -, h⟩ := execIn_cases s <;> exact ⟨_, h⟩
  | disp => obtain ⟨-, h⟩ | ⟨-, h⟩ := execDisp_cases s <;> exact ⟨_, h⟩
  | clr => obtain ⟨-, h⟩ | ⟨-, h⟩ := execClr_cases s <;> exact ⟨_, h⟩
  | scroll => obtain ⟨-, h⟩ | ⟨-, h⟩ := execScroll_cases s <;> exact ⟨_, h⟩
  | _ => exact ⟨_, rfl⟩

/-- No IN waits exactly when the field says so. -/
theorem waiting_eq_false (s : State) : s.waiting = false ↔ s.inWait = .none := by
  simp [State.waiting]

/-- When the next step cannot complete (R97). -/
theorem needsAnswer_iff (s : State) : s.needsAnswer = true ↔ fetched? s = some .inp ∧ s.hostInput = [] := by
  simp [State.needsAnswer]

/-- At END no step needs an answer. -/
theorem needsAnswer_at_end {s : State} (h : s.pc = pcEnd) : s.needsAnswer = false := by
  simp [State.needsAnswer, fetched?, h, pcAddr?_end]

/-- What a step can do (R90 to R97). -/
theorem step_cases (s : State) :
    ((s.halted = true ∨ s.waiting = true) ∧ step s = .next s) ∨
    (s.halted = false ∧ s.waiting = false ∧ s.needsAnswer = true ∧ step s = .next (setInWait .step s)) ∨
    (s.halted = false ∧ s.waiting = false ∧ s.pc = pcEnd ∧
      step s = .next (updateZN (setHalt true .memoryOutOfRange s))) ∨
    (∃ p : Byte, s.halted = false ∧ s.waiting = false ∧ s.needsAnswer = false ∧ s.pc = pcOfByte p ∧
      step s = exec (decodeFirst (s.mem.read p)) (advance s)) := by
  cases hh : s.halted with
  | true => exact .inl ⟨.inl rfl, by simp [step, cycle, hh]⟩
  | false =>
    cases hw : s.waiting with
    | true => exact .inl ⟨.inr rfl, by simp [step, cycle, hw]⟩
    | false =>
      obtain ⟨hp, hn⟩ | ⟨p, hp, hn⟩ := pc_cases s.pc
      · exact .inr (.inr (.inl ⟨rfl, rfl, hp, by
          simp [step, cycle, hh, hw, needsAnswer_at_end hp, fetched?, hn, haltStep, endStep, raiseHalt]⟩))
      · cases ha : s.needsAnswer with
        | true => exact .inr (.inl ⟨rfl, rfl, rfl, by simp [step, cycle, hh, hw, ha]⟩)
        | false =>
          exact .inr (.inr (.inr ⟨p, rfl, rfl, rfl, hp, by simp [step, cycle, hh, hw, ha, fetched?, hn]⟩))

end Sys2Proof.Machine
end

