-- ==== Sys2Proof/Laws/Host.lean ====
section
/-! SUPPORT. The host's calls as state updates. -/

namespace Sys2Proof.Machine

/-- Every step answers a next state, and `hostStep` is that state. -/
theorem step_eq_hostStep (s : State) : step s = .next (hostStep s) := by
  have : ∃ t, step s = .next t := by
    obtain ⟨-, h⟩ | ⟨-, -, -, h⟩ | ⟨-, -, -, h⟩ | ⟨p, -, -, -, -, h⟩ := step_cases s
    · exact ⟨_, h⟩
    · exact ⟨_, h⟩
    · exact ⟨_, h⟩
    · exact h ▸ exec_answers _ _
  obtain ⟨t, h⟩ := this
  simp [hostStep, h]

/-- `execute(b)` on a running machine is `exec` of the decoded byte (R99). -/
theorem exec_eq_hostExecute (b : Byte) {s : State} (h : s.halted = false) :
    exec (decodeFirst b) s = .next (hostExecute b s) := by
  obtain ⟨t, ht⟩ := exec_answers (decodeFirst b) s
  simp [hostExecute, h, ht]

theorem hostExecute_halted (b : Byte) {s : State} (h : s.halted = true) : hostExecute b s = s := by
  simp [hostExecute, h]

/-- How an answer completes a waiting IN: without a fetch for `execute(0xF1)`, else with it (R97, R99). -/
theorem completeIn_cases (inp : Option Byte) (s : State) :
    (s.inWait = .execute ∧ completeIn inp s = updateZN (takeAnswer inp (setInWait .none s))) ∨
    (s.inWait ≠ .execute ∧ completeIn inp s = updateZN (takeAnswer inp (advance (setInWait .none s)))) := by
  cases h : s.inWait <;> simp [completeIn, h]

@[simp] theorem completeIn_inWait (inp : Option Byte) (s : State) : (completeIn inp s).inWait = .none := by
  obtain ⟨-, h⟩ | ⟨-, h⟩ := completeIn_cases inp s <;> rw [h] <;> rfl

/-- What an answer can do: it is kept, or it completes the IN that waits, and a blocked `run()` goes on
(R97, R99, R102, R246). -/
theorem hostAnswer_cases (inp : Option Byte) (s : State) :
    (s.inWait = .none ∧ hostAnswer inp s = setHostInput (s.hostInput ++ [inp]) s) ∨
    ((s.inWait = .step ∨ s.inWait = .execute) ∧ hostAnswer inp s = completeIn inp s) ∨
    (∃ count, s.inWait = .run count ∧ answerReturns inp s = some (resumeLoop Config.runCap inp count s) ∧
      hostAnswer inp s = (resumeLoop Config.runCap inp count s).state) := by
  cases h : s.inWait <;> simp [hostAnswer, answerReturns, h]

/-- What the loop of `run()` can do with a step left (R102). -/
theorem runLoop_succ_cases (cap count : Nat) (s : State) :
    (s.halted = true ∧ runLoop (cap + 1) count s = .returned count s) ∨
    (s.halted = false ∧ s.waiting = true ∧ runLoop (cap + 1) count s = .waiting count s) ∨
    (s.halted = false ∧ s.waiting = false ∧ s.needsAnswer = true ∧
      runLoop (cap + 1) count s = .waiting count (setInWait (.run count) s)) ∨
    (s.halted = false ∧ s.waiting = false ∧ s.needsAnswer = false ∧
      runLoop (cap + 1) count s = runLoop cap (count + 1) (hostStep s)) := by
  cases hh : s.halted <;> cases hw : s.waiting <;> cases hn : s.needsAnswer <;> simp [runLoop, hh, hw, hn]

theorem betweenSteps_waiting (f : State → State) {s : State} (h : s.waiting = true) :
    betweenSteps f s = s := by
  simp [betweenSteps, h]

theorem betweenSteps_not_waiting (f : State → State) {s : State} (h : s.waiting = false) :
    betweenSteps f s = f s := by
  simp [betweenSteps, h]

/-- A property that `f` keeps between steps is kept by the call. -/
theorem betweenSteps_keeps {P : State → Prop} {f : State → State} {s : State} (hs : P s)
    (hf : s.waiting = false → P (f s)) : P (betweenSteps f s) := by
  cases h : s.waiting with
  | true => rwa [betweenSteps_waiting f h]
  | false => rw [betweenSteps_not_waiting f h]; exact hf h

/-- Loading keeps the canonical form of memory. -/
theorem wf_writeFrom : ∀ (p : List Byte) (i : Nat) {m : Memory}, m.wf = true → (writeFrom i p m).wf = true
  | [], _, _, h => h
  | v :: p, i, _, h => wf_writeFrom p (i + 1) (wf_write _ v h)

end Sys2Proof.Machine
end

