-- ==== Sys2Proof/Laws/PerInstr.lean ====
section
/-! SUPPORT. Statements about every instruction as syntax, one lemma per constructor. -/

namespace Sys2Proof.Laws

/-- The first byte the encoder writes lies in the instruction's own row of the opcode map, and the row
has its mnemonic and its length (spec/30_encoding.md R77). -/
def TableRow.Statement (i : Instr) : Prop :=
  ∃ r ∈ opcodeTable, r.covers (encodeFirst i) = true ∧ r.mnemonic = i.mnemonic ∧ r.length = i.length


theorem TableRow.load : TableRow.Statement .load := by unfold TableRow.Statement; decide

theorem TableRow.store (d : Nibble) : TableRow.Statement (.store d) := by
  unfold TableRow.Statement; revert d; decide

theorem TableRow.add (d : Nibble) : TableRow.Statement (.add d) := by
  unfold TableRow.Statement; revert d; decide

theorem TableRow.sub (d : Nibble) : TableRow.Statement (.sub d) := by
  unfold TableRow.Statement; revert d; decide

theorem TableRow.and (d : Nibble) : TableRow.Statement (.and d) := by
  unfold TableRow.Statement; revert d; decide

theorem TableRow.or (d : Nibble) : TableRow.Statement (.or d) := by
  unfold TableRow.Statement; revert d; decide

theorem TableRow.xor (d : Nibble) : TableRow.Statement (.xor d) := by
  unfold TableRow.Statement; revert d; decide

theorem TableRow.not : TableRow.Statement .not := by unfold TableRow.Statement; decide

theorem TableRow.shl : TableRow.Statement .shl := by unfold TableRow.Statement; decide

theorem TableRow.shr : TableRow.Statement .shr := by unfold TableRow.Statement; decide

theorem TableRow.jmp : TableRow.Statement .jmp := by unfold TableRow.Statement; decide

theorem TableRow.jz : TableRow.Statement .jz := by unfold TableRow.Statement; decide

theorem TableRow.jnz : TableRow.Statement .jnz := by unfold TableRow.Statement; decide

theorem TableRow.call (h : Nibble) : TableRow.Statement (.call h) := by
  unfold TableRow.Statement; revert h; decide

theorem TableRow.ret : TableRow.Statement .ret := by unfold TableRow.Statement; decide

theorem TableRow.halt : TableRow.Statement .halt := by unfold TableRow.Statement; decide

theorem TableRow.inp : TableRow.Statement .inp := by unfold TableRow.Statement; decide

theorem TableRow.out : TableRow.Statement .out := by unfold TableRow.Statement; decide

theorem TableRow.disp : TableRow.Statement .disp := by unfold TableRow.Statement; decide

theorem TableRow.curs : TableRow.Statement .curs := by unfold TableRow.Statement; decide

theorem TableRow.clr : TableRow.Statement .clr := by unfold TableRow.Statement; decide

theorem TableRow.gmode : TableRow.Statement .gmode := by unfold TableRow.Statement; decide

theorem TableRow.gpix : TableRow.Statement .gpix := by unfold TableRow.Statement; decide

theorem TableRow.scroll : TableRow.Statement .scroll := by unfold TableRow.Statement; decide

theorem TableRow.illegalF9 : TableRow.Statement .illegalF9 := by unfold TableRow.Statement; decide

theorem TableRow.illegalFA (x : BitVec 1) : TableRow.Statement (.illegalFA x) := by
  unfold TableRow.Statement; revert x; decide

theorem TableRow.illegalFC (x : BitVec 2) : TableRow.Statement (.illegalFC x) := by
  unfold TableRow.Statement; revert x; decide

end Sys2Proof.Laws
end

