-- ==== Sys2Proof/Tests/Slice0.lean ====
section
/-! SUPPORT. The model's own tests. Expected results are those of spec/95_test_vectors.md (the vector's
name stands in each test's comment) or are written out from the rule named there. -/

namespace Sys2Proof.Tests

open Sys2Proof.Machine Sys2Proof.Asm

/-- The reset state with PC = `p` and `bytes` from `p` on. -/
def codeAt (p : Fin 257) (bytes : List Byte) : State :=
  { State.reset with mem := writeFrom p.val bytes [], pc := p }

/-- A is `v`, and Z and N agree with it, as after any step. -/
def withA (v : Byte) (s : State) : State := updateZN (setA v s)

/-- The cell `k` holds `v`. -/
def withCell (k v : Byte) (s : State) : State := setMem (s.mem.write k v) s

/-- The state one step later. -/
def after (s : State) : State := hostStep s

/-! ## WellFormed smoke: an ill-formed term for each check -/

theorem test_wellFormed_refuses_missing_operand : Code.wellFormed ⟨.load, none⟩ = false := by decide
theorem test_wellFormed_refuses_extra_operand : Code.wellFormed ⟨.not, some 0x00⟩ = false := by decide
theorem test_wellFormed_accepts : Code.wellFormed ⟨.call 0x5, some 0x10⟩ = true := by decide

/-! ## Decoding: words written out from the opcode map R77 (vectors E1 to E15) -/

theorem test_decode_load : decodeFirst 0b00001111 = .load := by decide
theorem test_decode_direct :
    [0b00011010, 0b00101111, 0b00111100, 0b01001100, 0b01011100, 0b01101100].map decodeFirst =
      [.store 0xA, .add 0xF, .sub 0xC, .and 0xC, .or 0xC, .xor 0xC] := by decide
theorem test_decode_no_operand :
    [0b01110000, 0b01111111, 0b10000101, 0b10011010, 0b11101110].map decodeFirst =
      [.not, .not, .shl, .shr, .ret] := by decide
theorem test_decode_two_byte :
    [0b10100111, 0b10110011, 0b11001111, 0b11010101].map decodeFirst =
      [.jmp, .jz, .jnz, .call 0x5] := by decide
theorem test_decode_sys :
    [0b11110000, 0b11110001, 0b11110010, 0b11110011, 0b11110100, 0b11110101, 0b11110110, 0b11110111,
      0b11111000].map decodeFirst =
      [.halt, .inp, .out, .disp, .curs, .clr, .gmode, .gpix, .scroll] := by decide
theorem test_decode_illegal :
    [0b11111001, 0b11111010, 0b11111011, 0b11111100, 0b11111101, 0b11111110, 0b11111111].map decodeFirst =
      [.illegalF9, .illegalFA 0, .illegalFA 1, .illegalFC 0, .illegalFC 1, .illegalFC 2, .illegalFC 3] := by
  decide
theorem test_decode_takes_second_byte :
    decode [0x07, 0x33, 0xF0] = .ok (⟨.load, some 0x33⟩, [0xF0]) := by decide
theorem test_decode_refuses_no_bytes : decode [] = .error .noBytes := by decide
theorem test_decode_refuses_missing_second : decode [0xD0] = .error (.secondByteMissing (.call 0)) := by
  decide
theorem test_decodeTableWord :
    [decodeTableWord 16 0x00D5, decodeTableWord 8 0xF1, decodeTableWord 8 0xFA, decodeTableWord 16 0x0A] =
      [some (.call 5), some .inp, some (.illegalFA 0), some .load] := by decide
theorem test_withFetchWord_reset_runs_word :
    fetched? (State.reset.withFetchWord 8 0xF6) = some .gmode := by decide

/-! ## One step of each instruction -/

-- L3, L5, L6
theorem test_load : ((after (codeAt 0 [0x00, 0x80])).a, (after (codeAt 0 [0x00, 0x80])).n) = (0x80, true) := by
  decide
theorem test_load_at_254_reaches_end :
    ((after (codeAt 254 [0x00, 0x42])).a, (after (codeAt 254 [0x00, 0x42])).pc) = (0x42, pcEnd) := by decide
-- L8
theorem test_store : (after (withA 0xAB (codeAt 0x20 [0x1F]))).mem.read 15 = 0xAB := by decide
-- A2, A6, A9, A11, A13
theorem test_add_wraps : ((after (withCell 1 0x01 (withA 0xFF (codeAt 0x20 [0x21])))).a,
    (after (withCell 1 0x01 (withA 0xFF (codeAt 0x20 [0x21])))).z) = (0x00, true) := by decide
theorem test_sub_borrows : (after (withCell 0 0x01 (codeAt 0x20 [0x30]))).a = 0xFF := by decide
theorem test_and : (after (withCell 1 0x3C (withA 0xF0 (codeAt 0x20 [0x41])))).a = 0x30 := by decide
theorem test_or : (after (withCell 2 0x80 (withA 0x0F (codeAt 0x20 [0x52])))).a = 0x8F := by decide
theorem test_xor : (after (withCell 3 0xFF (withA 0xAA (codeAt 0x20 [0x63])))).a = 0x55 := by decide
-- A15, A18, A21, A24, A22
theorem test_not : (after (withA 0x01 (codeAt 0x20 [0x70]))).a = 0xFE := by decide
theorem test_shl : ((after (withA 0x81 (codeAt 0x20 [0x80]))).a,
    (after (withA 0x81 (codeAt 0x20 [0x80]))).c) = (0x02, true) := by decide
theorem test_shl_clears_c : (after (setC true (codeAt 0x20 [0x80]))).c = false := by decide
theorem test_shr_logical : (after (withA 0x80 (codeAt 0x20 [0x90]))).a = 0x40 := by decide
theorem test_shr_carry : (after (withA 0x03 (codeAt 0x20 [0x90]))).c = true := by decide
-- J6, J7
theorem test_jmp_backward : (after (codeAt 0x10 [0xA0, 0x80])).pc = 0x91 := by decide
theorem test_jmp_wraps : (after (codeAt 254 [0xA0, 0x01])).pc = 0 := by decide
-- X3, J12
theorem test_jz_first_after_reset : ((after (codeAt 0 [0xB0, 0x05])).pc,
    (after (codeAt 0 [0xB0, 0x05])).z) = (2, true) := by decide
theorem test_jz_at_255_faults : (after (withA 0x01 (codeAt 255 [0xB0]))).haltReason = .memoryOutOfRange := by
  decide
-- J13, J14
theorem test_jnz_taken : (after (withA 0x01 (codeAt 6 [0xC0, 0xFE]))).pc = 5 := by decide
theorem test_jnz_not_taken : (after (withA 0x00 (codeAt 6 [0xC0, 0xFE]))).pc = 8 := by decide
-- J17, J20
theorem test_call : ((after (codeAt 0 [0xD5, 0x10])).pc, (after (codeAt 0 [0xD5, 0x10])).sp,
    (after (codeAt 0 [0xD5, 0x10])).mem.read 0xFE) = (0x10, 0xFE, 0x02) := by decide
theorem test_call_pushes_onto_its_target : ((after (setSp 0x0C (codeAt 10 [0xD0, 0x30]))).pc,
    (after (setSp 0x0C (codeAt 10 [0xD0, 0x30]))).sp) = (12, 0x0B) := by decide
-- J21, J22
theorem test_ret : ((after (setSp 0xFE (withCell 0xFE 0x04 (codeAt 0x10 [0xE0])))).pc,
    (after (setSp 0xFE (withCell 0xFE 0x04 (codeAt 0x10 [0xE0])))).sp) = (0x04, 0xFF) := by decide
theorem test_ret_underflow : ((after (codeAt 0 [0xE0])).haltReason, (after (codeAt 0 [0xE0])).pc) =
    (.stackUnderflow, 1) := by decide
-- J25
theorem test_halt : ((after (codeAt 255 [0xF0])).haltReason, (after (codeAt 255 [0xF0])).pc) =
    (.haltInstruction, pcEnd) := by decide
-- D2, D4
theorem test_in_none : (after (hostAnswer none (withA 0x41 (codeAt 0 [0xF1])))).a = 0x00 := by decide
theorem test_in_waits : after (codeAt 0 [0xF1]) = setInWait .step (codeAt 0 [0xF1]) := by decide
-- D5
theorem test_out : (after (withA 0x41 (codeAt 0 [0xF2]))).hostOutput = [0x41] := by decide
-- D8, D10
theorem test_disp_wraps : ((after (setCursor 15 3 (withA 0x41 (codeAt 0 [0xF3])))).cursorX,
    (after (setCursor 15 3 (withA 0x41 (codeAt 0 [0xF3])))).cursorY) = (0, 0) := by decide
theorem test_disp_writes : TextGrid.cell (after (setCursor 14 3 (withA 0xFE (codeAt 0 [0xF3])))).text 3 14 = 0xFE := by
  decide
-- D13
theorem test_curs : ((after (withA 0x25 (codeAt 0 [0xF4]))).cursorX,
    (after (withA 0x25 (codeAt 0 [0xF4]))).cursorY) = (5, 2) := by decide
-- D15
theorem test_clr_graphics : GfxGrid.pixel
    (after (setDisplayMode .graphics (setGfx (GfxGrid.light blankGfx 0 0) (codeAt 0 [0xF5])))).gfx 0 0 = false := by
  decide
-- D17
theorem test_gmode : (after (withA 0x80 (codeAt 0 [0xF6]))).displayMode = .graphics := by decide
-- D21
theorem test_gpix : GfxGrid.pixel (after (withA 0xFF (codeAt 0 [0xF7]))).gfx 7 31 = true := by decide
-- D24, D25
theorem test_scroll : (after (withA 0xFF (codeAt 0 [0xF8]))).scrollOffset = 3 := by decide
theorem test_scroll_graphics : (after (setDisplayMode .graphics (setScroll 1 (withA 0x01 (codeAt 0 [0xF8]))))).scrollOffset
    = 1 := by decide
-- X2
theorem test_illegal : ((after (codeAt 0 [0xF9])).haltReason, (after (codeAt 0 [0xF9])).pc) =
    (.illegalInstruction, 1) := by decide
theorem test_illegal_fa : (after (codeAt 0 [0xFB])).haltReason = .illegalInstruction := by decide
theorem test_illegal_fc : (after (codeAt 0 [0xFE])).haltReason = .illegalInstruction := by decide

/-! ## The codes of R32 and R40 -/

theorem test_display_mode_codes : [DisplayMode.text, .graphics].map DisplayMode.code = [0, 1] := by decide
theorem test_halt_reason_codes : [HaltReason.none, .haltInstruction, .memoryOutOfRange, .stackOverflow,
    .stackUnderflow, .illegalInstruction].map HaltReason.code = [0, 1, 2, 3, 4, 5] := by decide

/-! ## The cycle and the host -/

-- R97, R246: the host's other calls do not end a wait; the answer does, of a step and of execute(0xF1)
theorem test_wait_ends_by_answer : (hostCall (.answer (some 0x41)) (after (codeAt 0 [0xF1]))).pc = 1 := by decide
theorem test_wait_of_execute : (hostCall .step (hostCall (.execute 0xF1) (codeAt 3 [0x00, 0x42])),
    (hostCall (.answer (some 0x41)) (hostExecute 0xF1 (codeAt 3 [0x00, 0x42]))).a) =
    (setInWait .execute (codeAt 3 [0x00, 0x42]), 0x41) := by decide
-- R102, R103: `NOT; IN; HALT` under caps 5 and 2, blocked after one step, then answered
theorem test_run_goes_on_when_answered : (runLoop 5 0 (codeAt 0 [0x70, 0xF1, 0xF0])).count = 1 ∧
    (resumeLoop 5 (some 0x41) 1 (runLoop 5 0 (codeAt 0 [0x70, 0xF1, 0xF0])).state).count = 3 ∧
    (resumeLoop 5 (some 0x41) 1 (runLoop 5 0 (codeAt 0 [0x70, 0xF1, 0xF0])).state).state.haltReason = .haltInstruction ∧
    (resumeLoop 2 (some 0x41) 1 (runLoop 2 0 (codeAt 0 [0x70, 0xF1, 0xF0])).state).count = 2 := by decide
theorem test_wait_ignores_interrupt : hostCall .interrupt (after (setInterruptEnabled true (codeAt 0 [0xF1]))) =
    after (setInterruptEnabled true (codeAt 0 [0xF1])) := by decide

-- X1, X6
theorem test_fetch_at_end : (after { State.reset with pc := pcEnd }).haltReason = .memoryOutOfRange := by decide
theorem test_halted_keeps_state : after (setHalt true .haltInstruction (codeAt 0 [0x00])) =
    setHalt true .haltInstruction (codeAt 0 [0x00]) := by decide
-- X7, X8
theorem test_execute_reads_operand_at_pc : ((hostExecute 0x00 (codeAt 3 [0x42])).a,
    (hostExecute 0x00 (codeAt 3 [0x42])).pc) = (0x42, 4) := by decide
theorem test_fetch_call_at_end : (hostFetch { State.reset with pc := pcEnd }).1 = 0xF0 := by decide
-- X12
theorem test_run_cap : (runLoop 1 0 (codeAt 0 [0x00, 0x05, 0xF0])).count = 1 := by decide
-- T3, T4, T5
theorem test_interrupt : ((interruptEntry (setInterruptEnabled true (withCell 0 0x55 (codeAt 0x20 [])))).pc,
    (interruptEntry (setInterruptEnabled true (withCell 0 0x55 (codeAt 0x20 [])))).mem.read 0xFE) = (0x55, 0x20) := by
  decide
theorem test_interrupt_overflow :
    (interruptEntry (setInterruptEnabled true (setSp 0x00 (codeAt 5 [])))).haltReason = .stackOverflow := by decide

/-! ## The assembler (W1, M2, M8, M9, M10, M13, M15, M16, M20) -/

theorem test_asm_w1 : assembleString "LOAD 0x05\nHALT" = .ok [0x00, 0x05, 0xF0] := by decide
theorem test_asm_forward_reference :
    assembleString "JMP fwd\nNOT\nfwd:\nHALT" = .ok [0xA0, 0x02, 0x70, 0xF0] := by decide
theorem test_asm_backward_reference :
    assembleString "LOAD 1\nhere:\nJMP here" = .ok [0x00, 0x01, 0xA0, 0xFF] := by decide
theorem test_asm_call : assembleString "CALL 200" = .ok [0xD0, 0xC8] := by decide
theorem test_asm_macro :
    assembleString "%macro TWICE\nNOT\nNOT\n%endmacro\nTWICE\nHALT" = .ok [0x70, 0x70, 0xF0] := by decide
theorem test_asm_macro_parameters :
    assembleString "%macro ADDTO cell src\nADD cell\nADD src\nSTORE cell\n%endmacro\nADDTO 1 2" =
      .ok [0x21, 0x22, 0x11] := by decide
theorem test_asm_comment_and_blank : assembleString "LOAD 5 ; comment\n\n  HALT  " = .ok [0x00, 0x05, 0xF0] := by
  decide
theorem test_asm_operand_out_of_range : assembleString "STORE 16" = .error ⟨1, .operandOutOfRange⟩ := by decide
theorem test_asm_malformed_number : assembleString "LOAD 0X10" = .error ⟨1, .malformedNumber⟩ := by decide
theorem test_asm_argument_count :
    assembleString "%macro M p\nADD p\n%endmacro\nM 1 2" = .error ⟨4, .macroArgumentCount⟩ := by decide
theorem test_asm_unknown_mnemonic : assembleString "load 5" = .error ⟨1, .unknownMnemonic⟩ := by decide
theorem test_asm_undefined_label : assembleString "JMP nowhere" = .error ⟨1, .undefinedLabel⟩ := by decide
theorem test_asm_duplicate_label : assembleString "a:\na:\nHALT" = .error ⟨2, .duplicateLabel⟩ := by decide
theorem test_asm_label_alone : assembleString "x: HALT" = .error ⟨1, .labelNotAlone⟩ := by decide
theorem test_asm_unterminated : assembleString "%macro M\nHALT" = .error ⟨2, .unterminatedDefinition⟩ := by decide
theorem test_asm_operand_count : assembleString "NOT 3" = .error ⟨1, .operandCount⟩ := by decide
theorem test_asm_nested_invocation :
    assembleString "%macro M\nNOT\n%endmacro\n%macro K\nM\n%endmacro\nK" = .error ⟨7, .nestedInvocation⟩ := by decide
theorem test_listing : [listing 6 ⟨.jmp, some 0xFE⟩, listing 0 ⟨.load, some 0x0A⟩, listing 0 ⟨.illegalFA 1, none⟩] =
    ["JMP 5".toList, "LOAD 0x0a".toList, "ILLEGAL 0xfb".toList] := by decide

/-! ## Witnesses: states and operands that meet the hypotheses of the obligations, clause by clause,
at the ends of their ranges. Each is named after its obligation. -/

/-- A running machine at END. -/
def atEnd : State := updateZN { State.reset with pc := pcEnd }

/-- A running machine with PC at 255 and SP = `v`. -/
def lastByte (v : Byte) : State := setSp v (codeAt 255 [0xF6])

theorem witness_DecodeOfEncodeGivesInstructionBack :
    Code.wellFormed ⟨.call 0xF, some 0xFF⟩ = true ∧ Code.wellFormed ⟨.store 0xF, none⟩ = true := by decide
theorem witness_FirstByteDecodesByOpcodeMap : 0xF9 ≤ (0xF9#8).toNat ∧ 0xF9 ≤ (0xFF#8).toNat := by decide
theorem witness_StepRunsDecodedInstruction : (lastByte 0).halted = false ∧ (lastByte 0).waiting = false ∧
    (lastByte 0).pc.val = (0xFF#8).toNat ∧ decodeFirst ((lastByte 0).mem.read 0xFF) = .gmode ∧
    (Instr.gmode = .inp → (lastByte 0).hostInput ≠ []) := by decide
theorem witness_StepRunsDecodedInstruction_in : (hostAnswer none (codeAt 0 [0xF1])).halted = false ∧
    (hostAnswer none (codeAt 0 [0xF1])).waiting = false ∧
    (hostAnswer none (codeAt 0 [0xF1])).pc.val = (0x00#8).toNat ∧
    decodeFirst ((hostAnswer none (codeAt 0 [0xF1])).mem.read 0x00) = .inp ∧
    (hostAnswer none (codeAt 0 [0xF1])).hostInput ≠ [] := by decide
theorem witness_FetchAtEndHalts : atEnd.halted = false ∧ atEnd.waiting = false ∧
    atEnd.pc.val = 256 := by decide
theorem witness_HaltedMachineKeepsItsState : (setHalt true .haltInstruction atEnd).halted = true := by decide
theorem witness_InWaitsForTheHost : (codeAt 255 [0xF1]).halted = false ∧ (codeAt 255 [0xF1]).waiting = false ∧
    (codeAt 255 [0xF1]).pc.val = (0xFF#8).toNat ∧ (codeAt 255 [0xF1]).mem.read 0xFF = 0xF1 ∧
    (codeAt 255 [0xF1]).hostInput = [] := by decide
theorem witness_FlagsFollowAAfterEveryStep : atEnd.halted = false ∧ atEnd.waiting = false ∧
    atEnd.needsAnswer = false ∧ (Instr.inp = .inp → (hostAnswer none atEnd).hostInput ≠ []) ∧
    (setInWait .execute atEnd).waiting = true := by decide
/-- For LOAD, JMP, JZ, JNZ and CALL: their clause at END and the last address of the other clause. -/
theorem witness_LoadTakesTheNextByte : (atEnd.pc.val = 256 ∧ atEnd.halted = false) ∧
    (lastByte 0).pc.val = (0xFF#8).toNat := by decide
theorem witness_StoreWritesItsDirectCell : (∃ t, exec (.store 0xF) atEnd = .next t) ∧
    (∀ h, Instr.store 0xF ≠ .call h) ∧ 16 ≤ (0x10#8).toNat := ⟨⟨_, rfl⟩, by decide, by decide⟩
/-- For ADD and SUB, and for AND, OR and XOR. -/
theorem witness_AddAndSubWrapModulo256 :
    0x7F = (withCell 15 0x7F atEnd).mem.read (BitVec.ofNat 8 (0xF#4).toNat) := by decide
theorem witness_JmpIsRelativeToItsOffsetByte : (atEnd.pc.val = 256 ∧ atEnd.halted = false) ∧
    State.reset.pc.val = (0x00#8).toNat := by decide
theorem witness_JzAndJnzBranchOnZ : (atEnd.pc.val = 256 ∧ atEnd.halted = false) ∧
    ((lastByte 0).pc.val = (0xFF#8).toNat ∧ (lastByte 0).z = false) ∧
    (updateZN (lastByte 0)).pc.val = (0xFF#8).toNat ∧ (updateZN (lastByte 0)).z = true := by decide
theorem witness_CallPushesAndThenReadsItsTarget : (atEnd.pc.val = 256 ∧ atEnd.halted = false) ∧
    ((lastByte 0).pc.val = (0xFF#8).toNat ∧ (lastByte 0).sp.toNat = 0 ∧ (lastByte 0).halted = false) ∧
    (lastByte 1).pc.val = (0xFF#8).toNat ∧ 0 < (lastByte 1).sp.toNat := by decide
theorem witness_RetPopsThePc : ((lastByte 255).sp.toNat = 255 ∧ (lastByte 255).halted = false) ∧
    (lastByte 254).sp.toNat < 255 ∧ (lastByte 0).sp.toNat < 255 := by decide
/-- For HALT and the illegal bytes. -/
theorem witness_IllegalBytesHalt : atEnd.halted = false ∧ 0xF9 ≤ (0xF9#8).toNat := by decide
theorem witness_InTakesTheOldestAnswer :
    (hostAnswer (some 0xFF) (hostAnswer none atEnd)).hostInput = none :: [some 0xFF] := by decide
/-- For DISP, CLR and SCROLL: both modes. -/
theorem witness_DispWritesAndAdvances : (setCursor 15 3 atEnd).displayMode = .text ∧
    (setDisplayMode .graphics (setCursor 15 3 atEnd)).displayMode = .graphics := by decide
theorem witness_GmodeSelectsTheMode : (withA 0x01 atEnd).a.toNat ≠ 0 ∧ (withA 0x00 atEnd).a.toNat = 0 := by
  decide
theorem witness_PushAndPopPrimitives : (lastByte 0).sp.toNat = 0 ∧ 0 < (lastByte 1).sp.toNat ∧
    (lastByte 255).sp.toNat = 255 ∧ (lastByte 254).sp.toNat < 255 := by decide
theorem witness_StackIsLastInFirstOut : (List.replicate 255 0x5A#8).length ≤ (lastByte 255).sp.toNat ∧
    [].length (α := Byte) ≤ (lastByte 0).sp.toNat :=
  ⟨Nat.le_of_eq List.length_replicate, Nat.le_refl 0⟩
theorem witness_StackHoldsAtMost255Bytes : (lastByte 255).sp = 0xFF ∧
    (List.replicate 255 0x5A#8).length ≤ 255 ∧ 255 < (List.replicate 256 0x5A#8).length :=
  ⟨rfl, Nat.le_of_eq List.length_replicate, Nat.lt_of_lt_of_eq (by decide) List.length_replicate.symm⟩
theorem witness_CallThenRetContinuesAfterTheCall : (lastByte 1).pc.val = (0xFF#8).toNat ∧
    0 < (lastByte 1).sp.toNat := by decide
/-- For the entry and for the return: PC at 255, SP = 1. -/
theorem witness_InterruptEntryPushesPcAndJumps : (setInterruptEnabled true (lastByte 1)).halted = false ∧
    (setInterruptEnabled true (lastByte 1)).interruptEnabled = true ∧
    (setInterruptEnabled true (lastByte 1)).pc.val = (0xFF#8).toNat ∧
    0 < (setInterruptEnabled true (lastByte 1)).sp.toNat := by decide
theorem witness_InterruptRequestGateAndFaults : (lastByte 1).interruptEnabled = false ∧
    (setHalt true .haltInstruction (setInterruptEnabled true (lastByte 1))).halted = true ∧
    ((setInterruptEnabled true atEnd).halted = false ∧ (setInterruptEnabled true atEnd).interruptEnabled = true ∧
      (setInterruptEnabled true atEnd).pc.val = 256) ∧
    (setInterruptEnabled true (lastByte 0)).halted = false ∧
    (setInterruptEnabled true (lastByte 0)).interruptEnabled = true ∧
    (setInterruptEnabled true (lastByte 0)).pc.val < 256 ∧
    (setInterruptEnabled true (lastByte 0)).sp.toNat = 0 := by decide
theorem witness_OnlyShiftsWriteC : (∃ t, exec (.add 0xF) (lastByte 0) = .next t) ∧
    Instr.add 0xF ≠ .shl ∧ Instr.add 0xF ≠ .shr := ⟨⟨_, rfl⟩, by decide, by decide⟩
theorem witness_OnlyTheStackPrimitivesMoveSp : (∃ t, push 0x5A (lastByte 1) = .ok t) ∧
    (∃ t, pop (lastByte 254) = .ok ((lastByte 254).mem.read 254, t)) ∧
    (∃ t, exec .jmp (lastByte 1) = .next t) ∧ (∀ h, Instr.jmp ≠ .call h) ∧ Instr.jmp ≠ .ret :=
  ⟨⟨_, rfl⟩, ⟨_, rfl⟩, ⟨_, rfl⟩, by decide, by decide⟩
theorem witness_OnlyTheHostWritesBAndInterruptFields : (∃ t, exec .gpix (lastByte 1) = .next t) ∧
    HostCall.run ≠ .reset ∧ (∀ e, HostCall.run ≠ .setEnabled e) ∧ ∀ v, HostCall.run ≠ .setVector v :=
  ⟨⟨_, rfl⟩, by decide, by decide, nofun⟩
theorem witness_OnlyStoreAndCallWriteMemory : (∃ t, exec (.store 0xF) (lastByte 1) = .next t) ∧
    (∀ d, Instr.store 0xF = .store d → (0x10#8).toNat ≠ d.toNat) ∧
    (∃ t, exec (.call 0xF) (lastByte 1) = .next t) ∧
    ∀ h, Instr.call 0xF = .call h → 0xFF#8 ≠ (lastByte 1).sp - 1#8 :=
  ⟨⟨_, rfl⟩, by decide, ⟨_, rfl⟩, by decide⟩
theorem witness_OnlyDisplayInstructionsChangeTheDisplay : (∃ t, exec .out (lastByte 1) = .next t) ∧
    Instr.out ∉ [.disp, .curs, .clr, .gmode, .gpix, .scroll] ∧ (∃ t, exec .scroll (lastByte 1) = .next t) ∧
    Instr.scroll ∈ [.disp, .curs, .clr, .gmode, .gpix, .scroll] := ⟨⟨_, rfl⟩, by decide, ⟨_, rfl⟩, by decide⟩
/-- Each reason of an execute phase: HALT, LOAD at END, CALL at SP = 0 and PC 255, RET at SP = 0xFF, 0xFF. -/
theorem witness_HaltReasonTellsTheCause : (lastByte 0).halted = false ∧ (lastByte 0).haltReason = .none ∧
    [(Instr.halt, lastByte 0), (.load, atEnd), (.call 0, lastByte 0), (.ret, lastByte 255),
      (.illegalFC 3, lastByte 0), (.call 0, lastByte 1)].map (fun c => (hostExecute (encodeFirst c.1) c.2).haltReason) =
      [.haltInstruction, .memoryOutOfRange, .stackOverflow, .stackUnderflow, .illegalInstruction, .none] := by
  decide
/-- Each reason of a step: HALT, END, CALL at 255 with SP = 0 (END first), CALL at 254, RET, 0xF9. -/
theorem witness_HaltReasonTellsTheCause_step :
    [codeAt 255 [0xF0], atEnd, setSp 0 (codeAt 255 [0xD0]), setSp 0 (codeAt 254 [0xD0]), codeAt 0 [0xE0],
      codeAt 0 [0xF9]].map (fun s => (s.halted, s.haltReason, s.waiting, (after s).haltReason)) =
      [.haltInstruction, .memoryOutOfRange, .memoryOutOfRange, .stackOverflow, .stackUnderflow,
        .illegalInstruction].map fun r => (false, .none, false, r) := by decide
/-- Each reason of an interrupt entry: END (with SP = 0 too), SP = 0 at 255, none. -/
theorem witness_HaltReasonTellsTheCause_interrupt :
    ([setSp 0 atEnd, lastByte 0, lastByte 1].map (setInterruptEnabled true)).map (fun s =>
      (s.halted, s.haltReason, s.interruptEnabled, (interruptEntry s).haltReason)) =
      [.memoryOutOfRange, .stackOverflow, .none].map fun r => (false, .none, true, r) := by decide
theorem witness_HaltingInstructionChangesNothingElse : (lastByte 255).halted = false ∧
    ∃ t, exec .ret (lastByte 255) = .next t ∧ t.halted = true := ⟨by decide, _, rfl, by decide⟩
theorem witness_StepKeepsFlagsAgreeingAtEnd : atEnd.EndAgrees ∧ atEnd.pc = pcEnd ∧
    ∃ t, step atEnd = .next t := ⟨fun _ => by unfold State.flagsAgree; decide, by decide, _, rfl⟩
/-- A coherent state that is halted and one that is not: for CoherenceIsKept. -/
theorem witness_CoherenceIsKept : (lastByte 1).Coherent ∧ (setHalt true .stackOverflow (lastByte 1)).Coherent ∧
    ∃ t, step (lastByte 1) = .next t := by
  refine ⟨?_, ?_, _, rfl⟩ <;> unfold State.Coherent State.haltMarked <;> decide
theorem witness_LowerPixelRowsStayBlank : (lastByte 1).LowerRowsBlank ∧
    ∃ t, exec .gpix (lastByte 1) = .next t := ⟨fun y x _ => pixel_blank y x, _, rfl⟩
theorem witness_ReachableStatesAreGood :
    (hostCall .step (hostCall (.load [0x00, 0x41]) State.reset)).Reachable := ⟨[.load [0x00, 0x41], .step], rfl⟩
theorem witness_EqualReadsMeanEqualMemories : Memory.wf [(0, 0x01), (255, 0xFF)] = true ∧
    ∀ addr : Byte, Memory.read [(0, 0x01), (255, 0xFF)] addr = Memory.read [(0, 0x01), (255, 0xFF)] addr :=
  ⟨by decide, fun _ => rfl⟩
theorem witness_FetchThenExecuteIsOneStep : atEnd.EndAgrees ∧ atEnd.waiting = false ∧
    atEnd.needsAnswer = false := ⟨fun _ => by unfold State.flagsAgree; decide, by decide, by decide⟩
theorem witness_FetchThenExecuteIsOneStep_wait : (codeAt 255 [0xF1]).EndAgrees ∧
    (codeAt 255 [0xF1]).waiting = false ∧ (codeAt 255 [0xF1]).halted = false ∧
    (codeAt 255 [0xF1]).needsAnswer = true := ⟨fun h => absurd h (by decide), by decide, by decide, by decide⟩
/-- Both waits, at 255 and at END. -/
theorem witness_OnlyAnswerOrResetEndsTheWait : (after (codeAt 255 [0xF1])).waiting = true ∧
    (after (codeAt 255 [0xF1])).halted = false ∧ (after (codeAt 255 [0xF1])).inWait = .step ∧
    (after (codeAt 255 [0xF1])).pc.val < 256 ∧ (hostExecute 0xF1 atEnd).waiting = true ∧
    (hostExecute 0xF1 atEnd).inWait = .execute ∧ (setInWait (.run 0) (codeAt 255 [0xF1])).inWait = .run 0 ∧
    atEnd.hostInput = [] ∧
    HostCall.interrupt ≠ .reset ∧ ∀ inp, HostCall.interrupt ≠ .answer inp :=
  ⟨by decide, by decide, by decide, by decide, by decide, by decide, by decide, by decide, by decide, nofun⟩
theorem witness_WaitStaysAtItsIn : (after (codeAt 255 [0xF1])).WaitAtIn ∧
    (after (codeAt 255 [0xF1])).waiting = true ∧ (hostExecute 0xF1 atEnd).WaitAtIn ∧
    (∃ t, step (codeAt 255 [0xF1]) = .next t) :=
  ⟨fun _ => ⟨by decide, by decide, by decide, fun _ h => nomatch (show InWait.step = .run _ from h)⟩, by decide,
    fun _ => ⟨by decide, by decide, by decide, fun _ h => nomatch (show InWait.execute = .run _ from h)⟩, _, rfl⟩
/-- A `run()` blocked at the top address after no step: RUN_CAP is positive. -/
theorem witness_WaitStaysAtItsIn_run : (setInWait (.run 0) (codeAt 255 [0xF1])).WaitAtIn ∧
    (setInWait (.run 0) (codeAt 255 [0xF1])).waiting = true :=
  ⟨fun _ => ⟨by decide, by decide, by decide, fun _ h => by
    cases (show InWait.run 0 = .run _ from h); exact Nat.succ_pos _⟩, by decide⟩
theorem witness_RunCountsItsSteps : runLoop 0 0 atEnd = .returned 0 atEnd ∧
    atEnd.waiting = false ∧ (codeAt 0 [0xF1]).waiting = false ∧
    runLoop 1 0 (codeAt 0 [0xF1]) = .waiting 0 (setInWait (.run 0) (codeAt 0 [0xF1])) := by decide
theorem witness_RunCountsItsSteps_hostRun :
    hostRun (codeAt 0 [0xF1]) = .waiting 0 (setInWait (.run 0) (codeAt 0 [0xF1])) := by
  simp only [hostRun, Config.runCap, runLoop]; decide
/-- The program `IN; JMP 0`. -/
def echoMem : Memory := writeFrom 0 [0xF1, 0xA0, 0xFE] []

/-- The states of that program, between steps (`pc` 0 or 1) and waiting at its IN. -/
def echoState (pc : Fin 257) (w : InWait) (a : Byte) (z n : Bool) : State :=
  { codeAt 0 [0xF1, 0xA0, 0xFE] with pc := pc, inWait := w, a := a, z := z, n := n }

theorem echo_wait (a : Byte) (z n : Bool) : hostStep (echoState 0 .none a z n) = echoState 0 .step a z n := by
  have h : fetched? (echoState 0 .none a z n) = some .inp :=
    (by decide : (pcAddr? 0).map (fun p => decodeFirst (echoMem.read p)) = some .inp)
  have hn : (echoState 0 .none a z n).needsAnswer = true := (needsAnswer_iff _).2 ⟨h, rfl⟩
  simp only [hostStep, step, cycle, hn]; rfl

theorem echo_jump (a : Byte) (z n : Bool) :
    hostStep (echoState 1 .none a z n) = echoState 0 .none a (zeroOf a) (negativeOf a) := by
  have h : fetched? (echoState 1 .none a z n) = some .jmp :=
    (by decide : (pcAddr? 1).map (fun p => decodeFirst (echoMem.read p)) = some .jmp)
  have hp : pcAddr? (advance (echoState 1 .none a z n)).pc = some 2 := (by decide : pcAddr? (pcNext 1) = some 2)
  have ht : pcOfByte (relTarget 2 ((advance (echoState 1 .none a z n)).mem.read 2)) = 0 :=
    (by decide : pcOfByte (relTarget 2 (echoMem.read 2)) = 0)
  have hn : (echoState 1 .none a z n).needsAnswer = false := by simp [State.needsAnswer, h]
  have hx : exec .jmp (advance (echoState 1 .none a z n)) =
      .next (updateZN (setPc 0 (advance (echoState 1 .none a z n)))) := by
    simp only [exec, execJmp, branch, operandAddr?, hp, if_true, jumpTo, ht, endStep]
  simp only [hostStep, step, cycle, hn, h, hx]; rfl

/-- R268: `IN; JMP 0` with a host that answers every IN is an endless run. -/
theorem test_endless_with_answers (host : Answers) (h : ∀ j, host j ≠ none) :
    (codeAt 0 [0xF1, 0xA0, 0xFE]).endless host := by
  have key (k : Nat) : ∃ pc w a z n,
      (runAfter host (codeAt 0 [0xF1, 0xA0, 0xFE]) k).state = echoState pc w a z n ∧
      (pc, w) ∈ [((0 : Fin 257), InWait.none), (0, .step), (1, .none)] := by
    induction k with
    | zero => exact ⟨0, .none, 0, false, false, rfl, by decide⟩
    | succ k ih =>
      obtain ⟨pc, w, a, z, n, hs, hm⟩ := ih
      simp only [runAfter, Run.move, hs]
      simp only [List.mem_cons, Prod.mk.injEq, List.not_mem_nil, or_false] at hm
      obtain ⟨rfl, rfl⟩ | ⟨rfl, rfl⟩ | ⟨rfl, rfl⟩ := hm
      · exact ⟨0, .step, a, z, n, echo_wait a z n, by decide⟩
      · obtain ⟨inp, hi⟩ := Option.ne_none_iff_exists'.1 (h (runAfter host (codeAt 0 [0xF1, 0xA0, 0xFE]) k).answered)
        rw [hi]
        exact ⟨1, .none, answerValue inp, _, _, rfl, by decide⟩
      · exact ⟨0, .none, a, _, _, echo_jump a z n, by decide⟩
  intro k
  obtain ⟨pc, w, a, z, n, hs, -⟩ := key k
  exact ⟨by rw [hs]; rfl, fun hk => h _ hk.2⟩

/-- A run that never gets its answer is stuck; one that gets it goes on. -/
theorem witness_RunEndsInExactlyOneWay : (codeAt 0 [0xF1]).WaitAtIn ∧
    (runAfter (fun _ => none) (codeAt 0 [0xF1]) 1).stuck (fun _ => none) ∧
    (runAfter (fun _ => some none) (codeAt 0 [0xF1]) 1).state.waiting = true ∧
    ¬ (runAfter (fun _ => some none) (codeAt 0 [0xF1]) 1).stuck (fun _ => some none) := by
  refine ⟨fun h => absurd h (by decide), ?_⟩
  unfold Run.stuck; decide
theorem witness_AssemblerEncodesEachMnemonic : operandValue [] "15".toList = .ok (some 15) ∧
    operandValue [("end".toList, some 255)] "end".toList = .ok (some 255) := by decide
theorem witness_AssembledJumpLandsOnItsTarget :
    operandValue [] "255".toList = .ok (some 255) ∧
    encodeLine [] (0xFE#8).toNat ["JNZ".toList, "255".toList] = .ok [0xC0, 0x00] ∧
    (0xFE#8).toNat < 255 ∧ (codeAt 254 [0xC0, 0x00]).halted = false ∧
    (codeAt 254 [0xC0, 0x00]).waiting = false ∧
    (codeAt 254 [0xC0, 0x00]).z = false ∧ (codeAt 254 [0xC0, 0x00]).pc.val = (0xFE#8).toNat ∧
    (codeAt 254 [0xC0, 0x00]).mem.read 0xFE = 0xC0 ∧
    (codeAt 254 [0xC0, 0x00]).mem.read (0xFE + 1) = 0x00 := by decide
theorem witness_MacroWithoutParametersInlines :
    findMacro [⟨"M".toList, [], [["NOT".toList]]⟩] "M".toList = some ⟨"M".toList, [], [["NOT".toList]]⟩ ∧
    "NOT".toList ≠ macroWord ∧ "NOT".toList ≠ endmacroWord ∧ endsInColon "NOT".toList = false ∧
    findMacro [⟨"M".toList, [], [["NOT".toList]]⟩] "NOT".toList = none := by decide
theorem witness_LabelsAreByteAddresses :
    encodeFrom (labelTable (some 0) ([.code 1 ["LOAD".toList, "1".toList]] ++ .label "x".toList :: [.code 3 ["JMP".toList, "x".toList]])) 0
      ([.code 1 ["LOAD".toList, "1".toList]] ++ .label "x".toList :: [.code 3 ["JMP".toList, "x".toList]]) =
      .ok [0x00, 0x01, 0xA0, 0xFF] ∧
    Expanded.label "x".toList ∉ [.code 1 ["LOAD".toList, "1".toList]] ++ [.code 3 ["JMP".toList, "x".toList]] := by
  decide
theorem witness_ListingReassembles : Code.wellFormed ⟨.call 0xF, some 0xFF⟩ = true ∧
    (Instr.call 0xF).mnemonic ≠ "ILLEGAL" := by decide

end Sys2Proof.Tests
end

section
/-! PROOFS. Z and N follow A: every completed execute phase, step and answered IN ends with `UpdateZN()`
(spec/40_execution_cycle.md R94, R96, R99), and a `run()` that goes on keeps what it left. -/

namespace Sys2Proof.Machine

/-- R12's words for Z and N say what the model's flag functions compute. -/
theorem flagsOfA_iff_flagsAgree (t : State) : t.flagsOfA ↔ t.flagsAgree := by
  have hz : zeroOf t.a = true ↔ t.a.toNat = 0 := by
    simp [zeroOf, BitVec.toNat_eq]
  have hn : negativeOf t.a = true ↔ 128 ≤ t.a.toNat := by
    have hmsb : negativeOf t.a = t.a.msb := (BitVec.msb_eq_getLsbD_last t.a).symm
    simp [hmsb, BitVec.msb_eq_decide]
  rw [State.flagsOfA, State.flagsAgree, ← hz, ← hn]
  exact and_congr Bool.eq_iff_iff.symm Bool.eq_iff_iff.symm

theorem updateZN_flagsOfA (s : State) : (updateZN s).flagsOfA :=
  (flagsOfA_iff_flagsAgree _).2 (updateZN_flagsAgree s)

/-- A relative jump ends with `UpdateZN()`, its fault included (R96; D6). -/
theorem branch_ends_with_updateZN (taken : Bool) (s : State) :
    ∃ t, branch taken s = .next (updateZN t) := by
  obtain ⟨-, h⟩ | ⟨p, -, -, h⟩ | ⟨p, -, -, h⟩ := branch_cases taken s <;> exact ⟨_, h⟩

/-- An execute phase ends with `UpdateZN()`, after a fault too, unless it is an IN left without an answer
(R94, R97, R99; D6). -/
theorem exec_ends_with_updateZN (i : Instr) (s : State) (hin : i = .inp → s.hostInput ≠ []) :
    ∃ t, exec i s = .next (updateZN t) := by
  cases i with
  | load => obtain ⟨-, h⟩ | ⟨p, -, h⟩ := execLoad_cases s <;> exact ⟨_, h⟩
  | jmp => exact branch_ends_with_updateZN true s
  | jz => exact branch_ends_with_updateZN s.z s
  | jnz => exact branch_ends_with_updateZN (!s.z) s
  | call h => obtain ⟨-, h⟩ | ⟨-, -, h⟩ | ⟨p, -, -, h⟩ := execCall_cases h s <;> exact ⟨_, h⟩
  | ret => obtain ⟨-, h⟩ | ⟨-, h⟩ := execRet_cases s <;> exact ⟨_, h⟩
  | inp =>
    obtain ⟨hnone, -⟩ | ⟨inp, rest, -, h⟩ := execIn_cases s
    · exact absurd hnone (hin rfl)
    · exact ⟨_, h⟩
  | disp => obtain ⟨-, h⟩ | ⟨-, h⟩ := execDisp_cases s <;> exact ⟨_, h⟩
  | clr => obtain ⟨-, h⟩ | ⟨-, h⟩ := execClr_cases s <;> exact ⟨_, h⟩
  | scroll => obtain ⟨-, h⟩ | ⟨-, h⟩ := execScroll_cases s <;> exact ⟨_, h⟩
  | _ => exact ⟨_, rfl⟩

/-- A step that completes ends with `UpdateZN()`, the fetch at END included (R91, R96). -/
theorem step_ends_with_updateZN {s : State} (hh : s.halted = false) (hw : s.waiting = false)
    (hn : s.needsAnswer = false) : ∃ t, step s = .next (updateZN t) := by
  obtain ⟨hstop, -⟩ | ⟨-, -, hyes, -⟩ | ⟨-, -, -, h⟩ | ⟨p, -, -, -, hp, h⟩ := step_cases s
  · simp [hh, hw] at hstop
  · simp [hn] at hyes
  · exact ⟨_, h⟩
  · have hin : decodeFirst (s.mem.read p) = .inp → s.hostInput ≠ [] := by
      intro hi hq
      have : s.needsAnswer = true := (needsAnswer_iff s).2 ⟨by simp [fetched?, hp, hi], hq⟩
      simp [hn] at this
    exact h ▸ exec_ends_with_updateZN _ (advance s) hin

theorem hostStep_flagsAgree {s : State} (hh : s.halted = false) (hw : s.waiting = false)
    (hn : s.needsAnswer = false) : (hostStep s).flagsAgree := by
  obtain ⟨t, ht⟩ := step_ends_with_updateZN hh hw hn
  have : hostStep s = updateZN t := by simp [hostStep, ht]
  exact this ▸ updateZN_flagsAgree t

/-- The loop of `run()` keeps Z and N in agreement with A: each step it performs completes, and the wait it
may end in changes no flag (R97, R102; log 2, log 17). -/
theorem runLoop_keeps_flagsAgree (cap count : Nat) {s : State} (hs : s.flagsAgree) :
    (runLoop cap count s).state.flagsAgree := by
  induction cap generalizing count s with
  | zero => exact hs
  | succ cap ih =>
    obtain ⟨-, h⟩ | ⟨-, -, h⟩ | ⟨-, -, -, h⟩ | ⟨hh, hw, hn, h⟩ := runLoop_succ_cases cap count s <;> rw [h]
    · exact hs
    · exact hs
    · exact hs
    · exact ih (count + 1) (hostStep_flagsAgree hh hw hn)

theorem completeIn_flagsAgree (inp : Option Byte) (s : State) : (completeIn inp s).flagsAgree := by
  obtain ⟨-, h⟩ | ⟨-, h⟩ := completeIn_cases inp s <;> exact h ▸ updateZN_flagsAgree _

/-- An answer to an IN that waits leaves the flags of A, also where a blocked `run()` goes on (R97, R102). -/
theorem hostAnswer_flagsAgree (inp : Option Byte) {s : State} (hw : s.waiting = true) :
    (hostAnswer inp s).flagsAgree := by
  obtain ⟨hnone, -⟩ | ⟨-, h⟩ | ⟨count, -, -, h⟩ := hostAnswer_cases inp s
  · simp [(waiting_eq_false s).2 hnone] at hw
  · exact h ▸ completeIn_flagsAgree inp s
  · exact h ▸ runLoop_keeps_flagsAgree _ _ (completeIn_flagsAgree inp s)

/-- Settles O9: each of the three kinds of completion ends with `UpdateZN()`, and the steps of a `run()`
that goes on after the answer keep the agreement. -/
theorem flagsFollowAAfterEveryStep : Obligations.FlagsFollowAAfterEveryStep := by
  refine ⟨fun s hh hw hn => ?_, fun i s hin => ?_, fun inp s hw => ?_⟩
  · obtain ⟨t, ht⟩ := step_ends_with_updateZN hh hw hn
    exact ⟨_, ht, updateZN_flagsOfA t⟩
  · obtain ⟨t, ht⟩ := exec_ends_with_updateZN i s hin
    exact ⟨_, ht, updateZN_flagsOfA t⟩
  · exact ⟨(flagsOfA_iff_flagsAgree _).2 (completeIn_flagsAgree inp s),
      (flagsOfA_iff_flagsAgree _).2 (hostAnswer_flagsAgree inp hw)⟩

end Sys2Proof.Machine
end

section
/-! PROOFS. Every execute phase in three cases, for all instructions at once: it halts for the reason
`stopReason` gives, it is an IN that begins to wait, or it has its `effect` and then `UpdateZN()`
(spec/40_execution_cycle.md R93 to R99, spec/60_exceptions.md R230, R233). -/

namespace Sys2Proof.Machine

/-- Why the execute phase of `i` halts, or none: END comes before the stack bound (R230, R233). -/
def stopReason (i : Instr) (s : State) : Option HaltReason :=
  match i with
  | .halt => some .haltInstruction
  | .illegalF9 | .illegalFA _ | .illegalFC _ => some .illegalInstruction
  | .load | .jmp | .jz | .jnz => if s.pc = pcEnd then some .memoryOutOfRange else none
  | .call _ =>
    if s.pc = pcEnd then some .memoryOutOfRange else if s.sp = 0#8 then some .stackOverflow else none
  | .ret => if s.sp = 255#8 then some .stackUnderflow else none
  | _ => none

/-- The address PC stands for below END. -/
def pcByte (s : State) : Byte := BitVec.ofNat 8 s.pc.val

/-- Where a relative jump goes on (R140 to R142). -/
def branchPc (taken : Bool) (s : State) : Fin 257 :=
  if taken then pcOfByte (relTarget (pcByte s) (s.mem.read (pcByte s))) else pcNext s.pc

/-- What the instruction writes where nothing stops it, before `UpdateZN()`. Conditions stand inside the
fields' new values, so that which fields an instruction writes can be read off. -/
def effect (i : Instr) (s : State) : State :=
  match i with
  | .load => advance (setA (s.mem.read (pcByte s)) s)
  | .store d => setMem (s.mem.write (directAddr d) s.a) s
  | .add d => setA (s.a + readDirect d s) s
  | .sub d => setA (s.a - readDirect d s) s
  | .and d => setA (s.a &&& readDirect d s) s
  | .or d => setA (s.a ||| readDirect d s) s
  | .xor d => setA (s.a ^^^ readDirect d s) s
  | .not => setA (~~~s.a) s
  | .shl => setA (s.a <<< 1) (setC (shlCarry s.a) s)
  | .shr => setA (s.a >>> 1) (setC (shrCarry s.a) s)
  | .jmp => setPc (branchPc true s) s
  | .jz => setPc (branchPc s.z s) s
  | .jnz => setPc (branchPc (!s.z) s) s
  | .call h => afterCall h (pcByte s) s
  | .ret => jumpTo (s.mem.read s.sp) (setSp (s.sp + 1#8) s)
  | .inp => takeAnswer (s.hostInput.headD none) (setHostInput s.hostInput.tail s)
  | .out => emit s.a s
  | .disp =>
    setCursor (if s.displayMode = .text then cursorNextX s.cursorX else s.cursorX)
      (if s.displayMode = .text then cursorNextY s.cursorX s.cursorY else s.cursorY)
      (setText (if s.displayMode = .text then TextGrid.put s.text s.cursorY s.cursorX s.a else s.text) s)
  | .curs => setCursor (cursorXOf s.a) (cursorYOf s.a) s
  | .clr =>
    setCursor 0 0 (setText (if s.displayMode = .text then blankText else s.text)
      (setGfx (if s.displayMode = .graphics then blankGfx else s.gfx) s))
  | .gmode => setDisplayMode (if s.a ≠ 0#8 then .graphics else .text) s
  | .gpix => setGfx (GfxGrid.light s.gfx (pixelYOf s.a) (pixelXOf s.a)) s
  | .scroll => setScroll (if s.displayMode = .text then scrollBy s.scrollOffset s.a else s.scrollOffset) s
  | .halt | .illegalF9 | .illegalFA _ | .illegalFC _ => s

/-- The state an execute phase comes to, as a function of the instruction and the state. -/
def executed (i : Instr) (s : State) : State :=
  match stopReason i s with
  | some r => updateZN (raiseHalt r s)
  | none => if i = .inp ∧ s.hostInput = [] then setInWait .execute s else updateZN (effect i s)

/-! Writing a display field with its own value changes nothing. -/

@[simp] theorem setCursor_self (s : State) : setCursor s.cursorX s.cursorY s = s := rfl
@[simp] theorem setText_self (s : State) : setText s.text s = s := rfl
@[simp] theorem setGfx_self (s : State) : setGfx s.gfx s = s := rfl
@[simp] theorem setText_setGfx_self (g : GfxGrid) (s : State) : setText s.text (setGfx g s) = setGfx g s := rfl
@[simp] theorem setScroll_self (s : State) : setScroll s.scrollOffset s = s := rfl

theorem haltStep_eq (r : HaltReason) (s : State) : haltStep r s = .next (updateZN (raiseHalt r s)) := rfl

/-- An execute phase stops for a reason, and NONE is no reason (R32). -/
theorem stopReason_ne_none (i : Instr) (s : State) : stopReason i s ≠ some .none := by
  cases i with
  | call h => by_cases hp : s.pc = pcEnd <;> simp [stopReason, hp]
  | _ => simp [stopReason]

theorem pcByte_of_pc {s : State} {p : Byte} (h : s.pc = pcOfByte p) : pcByte s = p := by
  simp [pcByte, h]

/-- A relative jump in terms of `branchPc`. -/
theorem branch_eq (taken : Bool) (s : State) :
    branch taken s = if s.pc = pcEnd then haltStep .memoryOutOfRange s
      else .next (updateZN (setPc (branchPc taken s) s)) := by
  obtain ⟨hp, h⟩ | ⟨p, hp, rfl, h⟩ | ⟨p, hp, rfl, h⟩ := branch_cases taken s
  · rw [h, if_pos hp]
  · rw [h, if_neg (hp ▸ pcOfByte_ne_end p), branchPc, pcByte_of_pc hp]; rfl
  · rw [h, if_neg (hp ▸ pcOfByte_ne_end p)]; rfl

/-- `exec` is `executed`: the helper's tie to the model. -/
theorem exec_eq_executed (i : Instr) (s : State) : exec i s = .next (executed i s) := by
  have hb (taken : Bool) (hstop : stopReason i s = if s.pc = pcEnd then some .memoryOutOfRange else none)
      (hin : i ≠ .inp) (heff : effect i s = setPc (branchPc taken s) s) :
      branch taken s = .next (executed i s) := by
    rw [branch_eq, executed, hstop, heff]
    split <;> simp [hin, haltStep_eq]
  cases i with
  | load =>
    obtain ⟨hp, h⟩ | ⟨p, hp, h⟩ := execLoad_cases s
    · simpa [exec, executed, stopReason, hp, haltStep_eq] using h
    · simpa [exec, executed, stopReason, effect, hp, pcOfByte_ne_end, pcByte_of_pc hp] using h
  | jmp => exact hb true rfl nofun rfl
  | jz => exact hb s.z rfl nofun rfl
  | jnz => exact hb (!s.z) rfl nofun rfl
  | call n =>
    obtain ⟨hp, h⟩ | ⟨hp, hsp, h⟩ | ⟨p, hp, hsp, h⟩ := execCall_cases n s
    · simpa [exec, executed, stopReason, hp, haltStep_eq] using h
    · simpa [exec, executed, stopReason, hp, hsp, haltStep_eq] using h
    · simpa [exec, executed, stopReason, effect, hp, hsp, pcOfByte_ne_end, pcByte_of_pc hp] using h
  | ret =>
    obtain ⟨hsp, h⟩ | ⟨hsp, h⟩ := execRet_cases s
    · simpa [exec, executed, stopReason, hsp, haltStep_eq] using h
    · simpa [exec, executed, stopReason, effect, hsp] using h
  | inp =>
    obtain ⟨hq, h⟩ | ⟨inp, rest, hq, h⟩ := execIn_cases s
    · simpa [exec, executed, stopReason, hq] using h
    · simpa [exec, executed, stopReason, effect, hq] using h
  | disp =>
    obtain ⟨hm, h⟩ | ⟨hm, h⟩ := execDisp_cases s <;>
      simpa [exec, executed, stopReason, effect, hm] using h
  | clr =>
    obtain ⟨hm, h⟩ | ⟨hm, h⟩ := execClr_cases s <;>
      simpa [exec, executed, stopReason, effect, hm] using h
  | scroll =>
    obtain ⟨hm, h⟩ | ⟨hm, h⟩ := execScroll_cases s <;>
      simpa [exec, executed, stopReason, effect, hm] using h
  | _ => rfl

theorem eq_executed {i : Instr} {s t : State} (h : exec i s = .next t) : t = executed i s := by
  rw [exec_eq_executed] at h
  cases h
  rfl

/-- What an execute phase can do, for every instruction. -/
theorem exec_next_cases {i : Instr} {s t : State} (h : exec i s = .next t) :
    (∃ r, stopReason i s = some r ∧ t = updateZN (raiseHalt r s)) ∨
    (i = .inp ∧ s.hostInput = [] ∧ t = setInWait .execute s) ∨
    (stopReason i s = none ∧ (i = .inp → s.hostInput ≠ []) ∧ t = updateZN (effect i s)) := by
  have ht := eq_executed h
  cases hr : stopReason i s with
  | some r => exact .inl ⟨r, rfl, by simp [ht, executed, hr]⟩
  | none =>
    by_cases hw : i = .inp ∧ s.hostInput = []
    · exact .inr (.inl ⟨hw.1, hw.2, by rw [ht, executed, hr]; exact if_pos hw⟩)
    · exact .inr (.inr ⟨rfl, fun hi hq => hw ⟨hi, hq⟩, by rw [ht, executed, hr]; exact if_neg hw⟩)

end Sys2Proof.Machine
end

section
/-! PROOFS. What the instructions neither read nor write: C, SP, B, the interrupt fields and the display
(spec/10_state.md R23, R24, R29, R33, R34, spec/44_io_display.md section 2). -/

namespace Sys2Proof.Machine

/-- The ends of an execute phase, that is a halt, a wait and `UpdateZN()`, neither read nor write what `g`
writes, and `g` leaves the host's answers as they are. -/
structure EndIgnores (g : State → State) : Prop where
  hostInput (s : State) : (g s).hostInput = s.hostInput
  halted (s : State) : (g s).halted = s.halted
  setHalt (r : HaltReason) (s : State) : setHalt true r (g s) = g (setHalt true r s)
  setInWait (w : InWait) (s : State) : setInWait w (g s) = g (setInWait w s)
  updateZN (s : State) : updateZN (g s) = g (updateZN s)

theorem EndIgnores.raiseHalt {g : State → State} (hg : EndIgnores g) (r : HaltReason) (s : State) :
    raiseHalt r (g s) = g (raiseHalt r s) := by
  cases hh : s.halted with
  | true => rw [raiseHalt_halted r hh, raiseHalt_halted r (by rw [hg.halted, hh])]
  | false => rw [raiseHalt_running r hh, raiseHalt_running r (by rw [hg.halted, hh]), hg.setHalt]

/-- An execute phase whose stop and effect ignore what `g` writes comes to the same state, `g` apart. -/
theorem exec_ignores {g : State → State} (hg : EndIgnores g) {i : Instr} {s t : State}
    (hstop : stopReason i (g s) = stopReason i s) (heff : effect i (g s) = g (effect i s))
    (h : exec i s = .next t) : exec i (g s) = .next (g t) := by
  rw [exec_eq_executed, eq_executed h]
  simp only [executed, hstop, heff, hg.hostInput]
  cases stopReason i s with
  | some r => simp only [hg.raiseHalt, hg.updateZN]
  | none => simp only [hg.setInWait, hg.updateZN, apply_ite g]

/-- A field that a halt, a wait, `UpdateZN()` and the effect of `i` all leave alone, `exec i` leaves alone. -/
theorem exec_keeps_field {α : Type} {f : State → α} {i : Instr} {s t : State}
    (hhalt : ∀ r, f (setHalt true r s) = f s) (hwait : f (setInWait .execute s) = f s)
    (hzn : ∀ u, f (updateZN u) = f u) (heff : f (effect i s) = f s) (h : exec i s = .next t) : f t = f s := by
  obtain ⟨r, -, rfl⟩ | ⟨-, -, rfl⟩ | ⟨-, -, rfl⟩ := exec_next_cases h
  · rw [hzn]
    cases hh : s.halted with
    | true => rw [raiseHalt_halted r hh]
    | false => rw [raiseHalt_running r hh, hhalt]
  · exact hwait
  · rw [hzn, heff]

/-! ### C -/

theorem endIgnores_setC (c : Bool) : EndIgnores (setC c) :=
  ⟨fun _ => rfl, fun _ => rfl, fun _ _ => rfl, fun _ _ => rfl, fun _ => rfl⟩

/-- Settles O36: neither the stop nor the effect of another instruction than SHL and SHR involves C. -/
theorem onlyShiftsWriteC : Obligations.OnlyShiftsWriteC := by
  refine ⟨fun i s t h hshl hshr => ?_, fun s c => ⟨⟨_, rfl, rfl, rfl⟩, _, rfl, rfl, rfl⟩⟩
  have key (c : Bool) : (effect i s).c = s.c ∧ stopReason i (setC c s) = stopReason i s ∧
      effect i (setC c s) = setC c (effect i s) := by
    cases i with
    | shl => exact absurd rfl hshl
    | shr => exact absurd rfl hshr
    | _ => exact ⟨rfl, rfl, rfl⟩
  have hwrite : (effect i s).c = s.c := (key s.c).1
  refine ⟨exec_keeps_field (f := State.c) (fun _ => rfl) rfl (fun _ => rfl) hwrite h, fun c => ?_⟩
  obtain ⟨-, hstop, hread⟩ := key c
  exact exec_ignores (endIgnores_setC c) hstop hread h

/-! ### SP -/

theorem endIgnores_setSp (v : Byte) : EndIgnores (setSp v) :=
  ⟨fun _ => rfl, fun _ => rfl, fun _ _ => rfl, fun _ _ => rfl, fun _ => rfl⟩

theorem push_sp {v : Byte} {s t : State} (h : push v s = .ok t) : t.sp.toNat + 1 = s.sp.toNat := by
  obtain ⟨-, hp⟩ | ⟨hsp, hp⟩ := push_cases v s
  · simp [hp] at h
  · obtain rfl : _ = t := by simpa [hp] using h
    simp only [setMem_sp, setSp_sp]
    bv_omega

theorem pop_sp {v : Byte} {s t : State} (h : pop s = .ok (v, t)) : t.sp.toNat = s.sp.toNat + 1 := by
  obtain ⟨-, hp⟩ | ⟨hsp, hp⟩ := pop_cases s
  · simp [hp] at h
  · obtain ⟨-, rfl⟩ : _ ∧ _ = t := by simpa [hp] using h
    simp only [setSp_sp]
    bv_omega

/-- Settles O37: the stack primitives move SP by one, and neither the stop nor the effect of another
instruction than CALL and RET involves it. -/
theorem onlyTheStackPrimitivesMoveSp : Obligations.OnlyTheStackPrimitivesMoveSp := by
  refine ⟨rfl, fun v s t => push_sp, fun v s t => pop_sp, fun i s t v h hcall hret => ?_⟩
  obtain ⟨hwrite, hstop, hread⟩ : (effect i s).sp = s.sp ∧ stopReason i (setSp v s) = stopReason i s ∧
      effect i (setSp v s) = setSp v (effect i s) := by
    cases i with
    | call n => exact absurd rfl (hcall n)
    | ret => exact absurd rfl hret
    | _ => exact ⟨rfl, rfl, rfl⟩
  exact ⟨exec_keeps_field (f := State.sp) (fun _ => rfl) rfl (fun _ => rfl) hwrite h,
    exec_ignores (endIgnores_setSp v) hstop hread h⟩

/-! ### The display -/

/-- The display fields as one value (R35 to R39). -/
def State.display (s : State) : DisplayMode × Fin 16 × Fin 4 × Fin 4 × TextGrid × GfxGrid :=
  (s.displayMode, s.cursorX, s.cursorY, s.scrollOffset, s.text, s.gfx)

theorem sameDisplay_iff (s t : State) : s.sameDisplay t ↔ t.display = s.display := by
  simp only [State.sameDisplay, State.display, Prod.mk.injEq]

/-- Settles O40: the effect of each other instruction leaves the display alone, and a display instruction
neither halts nor waits and has an effect on the display only. -/
theorem onlyDisplayInstructionsChangeTheDisplay : Obligations.OnlyDisplayInstructionsChangeTheDisplay := by
  refine fun i s t h => ⟨fun hi => (sameDisplay_iff s t).2 ?_, fun hi => ?_⟩
  · have heff : (effect i s).display = s.display := by
      cases i with
      | disp | curs | clr | gmode | gpix | scroll => simp at hi
      | _ => rfl
    exact exec_keeps_field (f := State.display) (fun _ => rfl) rfl (fun _ => rfl) heff h
  · obtain rfl := eq_executed h
    simp only [List.mem_cons, List.not_mem_nil, or_false] at hi
    obtain rfl | rfl | rfl | rfl | rfl | rfl := hi <;> rfl

end Sys2Proof.Machine
end

section
/-! PROOFS. The induction over what the machine and the host can do, packaged once: a property that each
update keeps is kept by `exec`, by a step and by every call of the host (spec/40_execution_cycle.md R105). -/

namespace Sys2Proof.Machine

variable {P : State → Prop} {s t : State}

/-- `P` is kept by every update that an execute phase, a step or a call of the host is made of. -/
structure KeptByUpdates (P : State → Prop) : Prop where
  setA {s : State} (v : Byte) : P s → P (setA v s)
  setSp {s : State} (v : Byte) : P s → P (setSp v s)
  setPc {s : State} (p : Fin 257) : P s → P (setPc p s)
  write {s : State} (addr v : Byte) : P s → P (setMem (s.mem.write addr v) s)
  updateZN {s : State} : P s → P (updateZN s)
  setHalt {s : State} {r : HaltReason} : r ≠ .none → P s → P (setHalt true r s)
  setInWait {s : State} (w : InWait) : P s → P (setInWait w s)
  setHostInput {s : State} (q : List (Option Byte)) : P s → P (setHostInput q s)
  effect {s : State} (i : Instr) : P s → P (effect i s)

namespace KeptByUpdates

theorem raiseHalt (hP : KeptByUpdates P) {r : HaltReason} (hr : r ≠ .none) (hs : P s) : P (raiseHalt r s) := by
  cases hh : s.halted with
  | true => rwa [raiseHalt_halted r hh]
  | false => rw [raiseHalt_running r hh]; exact hP.setHalt hr hs

theorem advance (hP : KeptByUpdates P) (hs : P s) : P (advance s) := hP.setPc _ hs

theorem exec (hP : KeptByUpdates P) {i : Instr} (hs : P s) (h : exec i s = .next t) : P t := by
  obtain ⟨r, hr, rfl⟩ | ⟨-, -, rfl⟩ | ⟨-, -, rfl⟩ := exec_next_cases h
  · exact hP.updateZN (hP.raiseHalt (fun h => stopReason_ne_none i s (h ▸ hr)) hs)
  · exact hP.setInWait _ hs
  · exact hP.updateZN (hP.effect i hs)

theorem step (hP : KeptByUpdates P) (hs : P s) (h : step s = .next t) : P t := by
  obtain ⟨-, h'⟩ | ⟨-, -, -, h'⟩ | ⟨-, -, -, h'⟩ | ⟨p, -, -, -, -, h'⟩ := step_cases s <;> rw [h'] at h
  · cases h; exact hs
  · cases h; exact hP.setInWait _ hs
  · cases h; exact hP.updateZN (hP.setHalt nofun hs)
  · exact hP.exec (hP.advance hs) h

theorem hostStep (hP : KeptByUpdates P) (hs : P s) : P (hostStep s) := hP.step hs (step_eq_hostStep s)

theorem hostExecute (hP : KeptByUpdates P) (b : Byte) (hs : P s) : P (hostExecute b s) := by
  cases hh : s.halted with
  | true => rwa [hostExecute_halted b hh]
  | false => exact hP.exec hs (exec_eq_hostExecute b hh)

theorem runLoop (hP : KeptByUpdates P) (cap count : Nat) (hs : P s) : P (runLoop cap count s).state := by
  induction cap generalizing count s with
  | zero => exact hs
  | succ cap ih =>
    obtain ⟨-, h⟩ | ⟨-, -, h⟩ | ⟨-, -, -, h⟩ | ⟨-, -, -, h⟩ := runLoop_succ_cases cap count s <;> rw [h]
    · exact hs
    · exact hs
    · exact hP.setInWait _ hs
    · exact ih (count + 1) (hP.hostStep hs)

theorem completeIn (hP : KeptByUpdates P) (inp : Option Byte) (hs : P s) : P (completeIn inp s) := by
  obtain ⟨-, h⟩ | ⟨-, h⟩ := completeIn_cases inp s <;> rw [h]
  · exact hP.updateZN (hP.setA _ (hP.setInWait _ hs))
  · exact hP.updateZN (hP.setA _ (hP.advance (hP.setInWait _ hs)))

theorem hostAnswer (hP : KeptByUpdates P) (inp : Option Byte) (hs : P s) : P (hostAnswer inp s) := by
  obtain ⟨-, h⟩ | ⟨-, h⟩ | ⟨count, -, -, h⟩ := hostAnswer_cases inp s <;> rw [h]
  · exact hP.setHostInput _ hs
  · exact hP.completeIn inp hs
  · exact hP.runLoop _ _ (hP.completeIn inp hs)

theorem hostFetch (hP : KeptByUpdates P) (hs : P s) : P (hostFetch s).2 := by
  obtain ⟨-, hn⟩ | ⟨p, -, hn⟩ := pc_cases s.pc <;> simp only [Machine.hostFetch, hn]
  · exact hP.raiseHalt nofun hs
  · split
    · exact hs
    · exact hP.advance hs

theorem interruptEntry (hP : KeptByUpdates P) (hs : P s) : P (interruptEntry s) := by
  obtain ⟨-, h⟩ | ⟨-, -, -, h⟩ | ⟨-, -, -, -, h⟩ | ⟨p, -, -, -, -, h⟩ := interruptEntry_cases s <;> rw [h]
  · exact hs
  · exact hP.setHalt nofun hs
  · exact hP.setHalt nofun hs
  · exact hP.setPc _ (hP.write (s.sp - 1#8) p (hP.setSp (s.sp - 1#8) hs))

theorem writeFrom (hP : KeptByUpdates P) (p : List Byte) (i : Nat) (hs : P s) :
    P (setMem (writeFrom i p s.mem) s) := by
  induction p generalizing i s with
  | nil => exact hs
  | cons v p ih => exact ih (i + 1) (hP.write (BitVec.ofNat 8 i) v hs)

/-- Of the calls of the host only reset and the two settings of the interrupt fields are left to show. -/
theorem hostCall (hP : KeptByUpdates P) {h : HostCall} (hs : P s) (hreset : h = .reset → P (hostReset s))
    (hvector : ∀ v, h = .setVector v → P (setInterruptVector v s))
    (henabled : ∀ e, h = .setEnabled e → P (setInterruptEnabled e s)) : P (hostCall h s) := by
  cases h with
  | load p => exact betweenSteps_keeps hs fun _ => hP.writeFrom (p.take 256) 0 hs
  | reset => exact hreset rfl
  | step => exact betweenSteps_keeps hs fun _ => hP.hostStep hs
  | run => exact betweenSteps_keeps (f := fun s => (hostRun s).state) hs fun _ => hP.runLoop _ _ hs
  | fetch => exact betweenSteps_keeps (f := fun s => (Machine.hostFetch s).2) hs fun _ => hP.hostFetch hs
  | execute b => exact betweenSteps_keeps hs fun _ => hP.hostExecute b hs
  | answer inp => exact hP.hostAnswer inp hs
  | setVector v => exact betweenSteps_keeps hs fun _ => hvector v rfl
  | setEnabled e => exact betweenSteps_keeps hs fun _ => henabled e rfl
  | interrupt => exact betweenSteps_keeps hs fun _ => hP.interruptEntry hs
  | read => exact hs

end KeptByUpdates

/-- What every call keeps holds along every list of calls. -/
theorem hostCalls_keeps (hcall : ∀ (h : HostCall) (s : State), P s → P (hostCall h s)) (hs : List HostCall)
    (h0 : P s) : P (hostCalls hs s) := by
  induction hs generalizing s with
  | nil => exact h0
  | cons h hs ih => exact ih (hcall h s h0)

/-! ### B and the interrupt fields -/

/-- The fields no instruction names: B, `interrupt_enabled` and `interrupt_vector` (R23, R33, R34). -/
def State.hostFields (s : State) : Byte × Bool × Byte := (s.b, s.interruptEnabled, s.interruptVector)

/-- Write those fields, nothing else. -/
def setHostFields (b : Byte) (e : Bool) (v : Byte) (s : State) : State :=
  { s with b := b, interruptEnabled := e, interruptVector := v }

theorem endIgnores_setHostFields (b : Byte) (e : Bool) (v : Byte) : EndIgnores (setHostFields b e v) :=
  ⟨fun _ => rfl, fun _ => rfl, fun _ _ => rfl, fun _ _ => rfl, fun _ => rfl⟩

/-- The stop and the effect of an instruction neither read nor write them (D16). -/
theorem effect_ignores_hostFields (i : Instr) (b : Byte) (e : Bool) (v : Byte) (s : State) :
    (effect i s).hostFields = s.hostFields ∧
    stopReason i (setHostFields b e v s) = stopReason i s ∧
    effect i (setHostFields b e v s) = setHostFields b e v (effect i s) := by
  cases i <;> exact ⟨rfl, rfl, rfl⟩

/-- Any part `k` of the host's fields keeps its value. -/
theorem keptByUpdates_hostFields {α : Type} (k : Byte × Bool × Byte → α) (x : α) :
    KeptByUpdates fun t => k t.hostFields = x where
  setA _ h := h
  setSp _ h := h
  setPc _ h := h
  write _ _ h := h
  updateZN h := h
  setHalt _ h := h
  setInWait _ h := h
  setHostInput _ h := h
  effect i h := by rwa [(effect_ignores_hostFields i 0 false 0 _).1]

/-- Settles O38: no effect reads or writes the host's fields, and no update but reset and the host's own
settings touches them. -/
theorem onlyTheHostWritesBAndInterruptFields : Obligations.OnlyTheHostWritesBAndInterruptFields := by
  refine ⟨fun i s t b v e h => ?_, fun h s hr => ⟨?_, fun he => ?_, fun hv => ?_⟩⟩
  · have hkeep : t.hostFields = s.hostFields := (keptByUpdates_hostFields id s.hostFields).exec rfl h
    obtain ⟨-, hstop, heff⟩ := effect_ignores_hostFields i b e v s
    obtain ⟨hb, hen, hvec⟩ : t.b = s.b ∧ t.interruptEnabled = s.interruptEnabled ∧
      t.interruptVector = s.interruptVector := by simpa [State.hostFields] using hkeep
    exact ⟨hb, hen, hvec, exec_ignores (endIgnores_setHostFields b e v) hstop heff h⟩
  · exact (keptByUpdates_hostFields (fun f => f.1) s.b).hostCall rfl (absurd · hr)
      (fun _ _ => rfl) fun _ _ => rfl
  · exact (keptByUpdates_hostFields (fun f => f.2.1) s.interruptEnabled).hostCall rfl (absurd · hr)
      (fun _ _ => rfl) fun e h => absurd h (he e)
  · exact (keptByUpdates_hostFields (fun f => f.2.2) s.interruptVector).hostCall rfl (absurd · hr)
      (fun v h => absurd h (hv v)) fun _ _ => rfl

end Sys2Proof.Machine
end

section
/-! PROOFS. The invariants and reset: flags at END, coherence, the blank pixel rows, the wait at its IN, and
that every reachable state meets them (spec/10_state.md section 7, spec/40_execution_cycle.md R91, R97, R102,
spec/44_io_display.md R167). -/

namespace Sys2Proof.Machine

variable {s t : State}

/-! ### The flags at END -/

/-- Settles O43: a step that completes leaves flags of A, and any other leaves PC, A and the flags alone. -/
theorem stepKeepsFlagsAgreeingAtEnd : Obligations.StepKeepsFlagsAgreeingAtEnd := by
  intro s t hs h
  have ht : hostStep s = t := by simpa [step_eq_hostStep] using h
  obtain ⟨-, h'⟩ | ⟨-, -, -, h'⟩ | ⟨hh, hw, hp, -⟩ | ⟨p, hh, hw, hn, -, -⟩ := step_cases s
  · rw [h'] at h; cases h; exact hs
  · rw [h'] at h; cases h; exact hs
  · exact fun _ => ht ▸ hostStep_flagsAgree hh hw (needsAnswer_at_end hp)
  · exact fun _ => ht ▸ hostStep_flagsAgree hh hw hn

/-! ### Coherence -/

theorem effect_halted (i : Instr) (s : State) : (effect i s).halted = s.halted := by cases i <;> rfl

theorem effect_haltReason (i : Instr) (s : State) : (effect i s).haltReason = s.haltReason := by
  cases i <;> rfl

/-- STORE and CALL write one cell, and no other instruction writes memory. -/
theorem effect_mem_wf (i : Instr) (h : s.mem.wf = true) : (effect i s).mem.wf = true := by
  cases i with
  | store d => exact wf_write _ _ h
  | call n => exact wf_write _ _ h
  | _ => exact h

theorem keptByUpdates_coherent : KeptByUpdates State.Coherent where
  setA _ h := h
  setSp _ h := h
  setPc _ h := h
  write addr v h := ⟨wf_write addr v h.1, h.2⟩
  updateZN h := h
  setHalt hr h := ⟨h.1, by simp [State.haltMarked, hr]⟩
  setInWait _ h := h
  setHostInput _ h := h
  effect i h := ⟨effect_mem_wf i h.1, by
    rw [State.haltMarked, effect_halted, effect_haltReason]; exact h.2⟩

theorem hostReset_coherent (s : State) : (hostReset s).Coherent :=
  ⟨rfl, by simp [State.haltMarked, hostReset, State.reset]⟩

/-- Settles O44: each update keeps coherence, and reset and the host's settings too. -/
theorem coherenceIsKept : Obligations.CoherenceIsKept :=
  ⟨fun _ _ => keptByUpdates_coherent.step, fun _ s hs =>
    keptByUpdates_coherent.hostCall hs (fun _ => hostReset_coherent s) (fun _ _ => hs) fun _ _ => hs⟩

/-! ### The lower pixel rows -/

/-- `(A >> 5) & 0x1F` of a byte is below 8. -/
theorem pixelYOf_lt (a : Byte) : (pixelYOf a).val < 8 := by
  have ha : a.toNat < 256 := a.isLt
  simp only [pixelYOf]
  omega

/-- CLR blanks the grid, GPIX lights a pixel in rows 0..7, and no other instruction writes the grid. -/
theorem effect_lowerRowsBlank (i : Instr) (hs : s.LowerRowsBlank) : (effect i s).LowerRowsBlank := by
  cases i with
  | clr =>
    intro y x hy
    cases hm : s.displayMode with
    | text => simpa [effect, hm] using hs y x hy
    | graphics => simp [effect, hm]
  | gpix =>
    intro y x hy
    have hrow : y ≠ pixelYOf s.a := by
      rintro rfl
      exact absurd (pixelYOf_lt s.a) (by omega)
    simp only [effect, setGfx_gfx, pixel_light, hs y x hy, hrow, false_and, decide_false, Bool.or_false]
  | _ => exact hs

theorem keptByUpdates_lowerRowsBlank : KeptByUpdates State.LowerRowsBlank where
  setA _ h := h
  setSp _ h := h
  setPc _ h := h
  write _ _ h := h
  updateZN h := h
  setHalt _ h := h
  setInWait _ h := h
  setHostInput _ h := h
  effect i h := effect_lowerRowsBlank i h

theorem hostReset_lowerRowsBlank (s : State) : (hostReset s).LowerRowsBlank := fun y x _ => pixel_blank y x

/-- Settles O46: GPIX alone lights a pixel, in rows 0..7. -/
theorem lowerPixelRowsStayBlank : Obligations.LowerPixelRowsStayBlank :=
  ⟨fun _ _ _ => keptByUpdates_lowerRowsBlank.exec, fun _ s hs =>
    keptByUpdates_lowerRowsBlank.hostCall hs (fun _ => hostReset_lowerRowsBlank s) (fun _ _ => hs)
      fun _ _ => hs⟩

/-! ### The wait -/

/-- Where no IN waits there is nothing to show of the wait. -/
theorem waitAtIn_of_inWait_none (h : s.inWait = .none) : s.WaitAtIn := fun hw => by
  simp [(waiting_eq_false s).2 h] at hw

theorem effect_inWait (i : Instr) (s : State) : (effect i s).inWait = s.inWait := by cases i <;> rfl

theorem raiseHalt_inWait (r : HaltReason) (s : State) : (raiseHalt r s).inWait = s.inWait := by
  unfold raiseHalt
  split <;> rfl

/-- An execute phase begins no wait, but for an IN without an answer (R97). -/
theorem exec_inWait {i : Instr} (hin : i = .inp → s.hostInput ≠ []) (h : exec i s = .next t) :
    t.inWait = s.inWait := by
  obtain ⟨r, -, rfl⟩ | ⟨hi, hq, -⟩ | ⟨-, -, rfl⟩ := exec_next_cases h
  · exact raiseHalt_inWait r s
  · exact absurd hq (hin hi)
  · exact effect_inWait i s

/-- A step that needs no answer waits for none. -/
theorem step_inWait (hn : s.needsAnswer = false) (h : step s = .next t) : t.inWait = s.inWait := by
  obtain ⟨-, h'⟩ | ⟨-, -, hyes, -⟩ | ⟨-, -, -, h'⟩ | ⟨p, -, -, -, hp, h'⟩ := step_cases s
  · rw [h'] at h; cases h; rfl
  · simp [hn] at hyes
  · rw [h'] at h; cases h; rfl
  · rw [h'] at h
    refine exec_inWait (s := advance s) (fun hi hq => ?_) h
    have hyes : s.needsAnswer = true := (needsAnswer_iff s).2 ⟨by simp [fetched?, hp, hi], hq⟩
    simp [hn] at hyes

theorem hostStep_inWait (hn : s.needsAnswer = false) : (hostStep s).inWait = s.inWait :=
  step_inWait hn (step_eq_hostStep s)

/-- The wait of a step or of `run()` begins at an IN with no answer left (R97, R102). -/
theorem setInWait_waitAtIn {w : InWait} (hh : s.halted = false) (hn : s.needsAnswer = true)
    (hcap : ∀ count, w = .run count → count < Config.runCap) : (setInWait w s).WaitAtIn := by
  obtain ⟨hf, hq⟩ := (needsAnswer_iff s).1 hn
  exact fun _ => ⟨hh, hq, fun _ => hf, hcap⟩

theorem step_waitAtIn (hs : s.WaitAtIn) (h : step s = .next t) : t.WaitAtIn := by
  obtain ⟨-, h'⟩ | ⟨hh, -, hn, h'⟩ | ⟨-, hw, -, h'⟩ | ⟨p, -, hw, hn, -, -⟩ := step_cases s
  · rw [h'] at h; cases h; exact hs
  · rw [h'] at h; cases h; exact setInWait_waitAtIn hh hn nofun
  · rw [h'] at h; cases h; exact waitAtIn_of_inWait_none ((waiting_eq_false s).1 hw)
  · exact waitAtIn_of_inWait_none ((step_inWait hn h).trans ((waiting_eq_false s).1 hw))

/-- `execute(b)` of a machine in which no IN waits may begin the wait of an `execute(0xF1)` (R99). -/
theorem hostExecute_waitAtIn (b : Byte) (hw : s.inWait = .none) : (hostExecute b s).WaitAtIn := by
  cases hh : s.halted with
  | true => rw [hostExecute_halted b hh]; exact waitAtIn_of_inWait_none hw
  | false =>
    obtain ⟨r, -, h⟩ | ⟨-, hq, h⟩ | ⟨-, -, h⟩ := exec_next_cases (exec_eq_hostExecute b hh) <;> rw [h]
    · exact waitAtIn_of_inWait_none ((raiseHalt_inWait r s).trans hw)
    · exact fun _ => ⟨hh, hq, fun hne => absurd rfl hne, nofun⟩
    · exact waitAtIn_of_inWait_none ((effect_inWait _ s).trans hw)

/-- The loop of `run()` stops at an IN only while it has a step left, so below the cap (R102). -/
theorem runLoop_waitAtIn (cap count : Nat) (hw : s.inWait = .none) (hcap : count + cap ≤ Config.runCap) :
    (runLoop cap count s).state.WaitAtIn := by
  induction cap generalizing count s with
  | zero => exact waitAtIn_of_inWait_none hw
  | succ cap ih =>
    obtain ⟨-, h⟩ | ⟨-, -, h⟩ | ⟨hh, -, hn, h⟩ | ⟨-, -, hn, h⟩ := runLoop_succ_cases cap count s <;> rw [h]
    · exact waitAtIn_of_inWait_none hw
    · exact waitAtIn_of_inWait_none hw
    · refine setInWait_waitAtIn hh hn fun k hk => ?_
      cases hk
      omega
    · exact ih (count + 1) ((hostStep_inWait hn).trans hw) (by omega)

/-- The answer ends the wait; a blocked `run()` goes on with the steps left under its cap (R102). -/
theorem hostAnswer_waitAtIn (inp : Option Byte) (hs : s.WaitAtIn) : (hostAnswer inp s).WaitAtIn := by
  obtain ⟨hnone, h⟩ | ⟨-, h⟩ | ⟨count, hrun, -, h⟩ := hostAnswer_cases inp s <;> rw [h]
  · exact waitAtIn_of_inWait_none hnone
  · exact waitAtIn_of_inWait_none (completeIn_inWait inp s)
  · obtain ⟨-, -, -, hcap⟩ := hs (by simp [State.waiting, hrun])
    have hlt := hcap count hrun
    exact runLoop_waitAtIn _ _ (completeIn_inWait inp s) (by omega)

/-- A call that leaves `inWait` alone between steps keeps the wait at its IN. -/
theorem betweenSteps_waitAtIn {f : State → State} (hs : s.WaitAtIn) (hf : (f s).inWait = s.inWait) :
    (betweenSteps f s).WaitAtIn :=
  betweenSteps_keeps hs fun hw => waitAtIn_of_inWait_none (hf.trans ((waiting_eq_false s).1 hw))

theorem hostFetch_inWait (s : State) : (hostFetch s).2.inWait = s.inWait := by
  obtain ⟨-, hn⟩ | ⟨p, -, hn⟩ := pc_cases s.pc <;> simp only [hostFetch, hn]
  · exact raiseHalt_inWait _ s
  · split <;> rfl

theorem interruptEntry_inWait (s : State) : (interruptEntry s).inWait = s.inWait := by
  obtain ⟨-, h⟩ | ⟨-, -, -, h⟩ | ⟨-, -, -, -, h⟩ | ⟨p, -, -, -, -, h⟩ := interruptEntry_cases s <;> rw [h] <;> rfl

/-- Settles O47: a step and `run()` begin a wait only at an IN, `execute(0xF1)` one of its own, the answer
and reset end it, and the other calls act only where no IN waits. -/
theorem waitStaysAtItsIn : Obligations.WaitStaysAtItsIn := by
  refine ⟨fun _ _ => step_waitAtIn, fun h s hs => ?_⟩
  have hnone : s.waiting = false → s.inWait = .none := (waiting_eq_false s).1
  cases h with
  | load p => exact betweenSteps_waitAtIn hs rfl
  | reset => exact waitAtIn_of_inWait_none rfl
  | step => exact betweenSteps_keeps hs fun _ => step_waitAtIn hs (step_eq_hostStep s)
  | run =>
    exact betweenSteps_keeps (f := fun s => (hostRun s).state) hs fun hw =>
      runLoop_waitAtIn _ _ (hnone hw) (Nat.zero_add _).le
  | fetch => exact betweenSteps_waitAtIn (f := fun s => (hostFetch s).2) hs (hostFetch_inWait s)
  | execute b => exact betweenSteps_keeps hs fun hw => hostExecute_waitAtIn b (hnone hw)
  | answer inp => exact hostAnswer_waitAtIn inp hs
  | setVector v => exact betweenSteps_waitAtIn hs rfl
  | setEnabled e => exact betweenSteps_waitAtIn hs rfl
  | interrupt => exact betweenSteps_waitAtIn hs (interruptEntry_inWait s)
  | read => exact hs

/-! ### Reset and what the host can reach -/

/-- Settles O45: the reset state is what `hostReset` makes of itself; it is not at END, and no IN waits. -/
theorem resetMeetsTheInvariants : Obligations.ResetMeetsTheInvariants :=
  ⟨hostReset_coherent State.reset, fun h => absurd h (by decide), hostReset_lowerRowsBlank State.reset,
    waitAtIn_of_inWait_none rfl⟩

/-- B is 0 (D3): reset makes it so, and nothing else writes it. -/
theorem hostCall_b_eq_zero (h : HostCall) (hs : s.b = 0x00) : (hostCall h s).b = 0x00 := by
  by_cases hr : h = .reset
  · subst hr; rfl
  · obtain ⟨-, hcalls⟩ := onlyTheHostWritesBAndInterruptFields
    obtain ⟨hb, -⟩ := hcalls h s hr
    exact hb.trans hs

/-- Settles O48: the reset state is good and every call of the host keeps each part. -/
theorem reachableStatesAreGood : Obligations.ReachableStatesAreGood := by
  rintro s ⟨hs, rfl⟩
  obtain ⟨hcoherent, -, hrows, hwait⟩ := resetMeetsTheInvariants
  obtain ⟨-, callRows⟩ := lowerPixelRowsStayBlank
  obtain ⟨-, callCoherent⟩ := coherenceIsKept
  obtain ⟨-, callWait⟩ := waitStaysAtItsIn
  exact ⟨hostCalls_keeps (P := fun t => t.b = 0x00) (fun h _ => hostCall_b_eq_zero h) hs rfl,
    hostCalls_keeps callRows hs hrows, hostCalls_keeps callCoherent hs hcoherent,
    hostCalls_keeps callWait hs hwait⟩

/-- Settles O55: reset writes every field of the record with the value `State.reset` gives it. -/
theorem resetValues : Obligations.ResetValues := fun s =>
  ⟨hostReset s, rfl, rfl, rfl, fun _ => rfl, rfl, rfl, rfl, rfl, rfl, rfl, rfl, rfl, rfl, rfl, rfl, rfl, rfl, rfl,
    rfl, rfl, cell_blank, pixel_blank, rfl⟩

end Sys2Proof.Machine
end

section
/-! PROOFS. The canonical form of memory is extensional (spec/20_memory.md section 1; log 27). -/

namespace Sys2Proof.Machine

/-- Below the first address a canonical cell list lists nothing. -/
theorem lookup_below {lo k : Nat} {m : Memory} (h : Memory.wfFrom lo m = true) (hk : k < lo) :
    Memory.lookup k m = Memory.unlisted := by
  induction m generalizing lo with
  | nil => rfl
  | cons c rest ih =>
    simp only [Memory.wfFrom, Bool.and_eq_true, decide_eq_true_eq] at h
    obtain ⟨⟨⟨hlo, -⟩, -⟩, hrest⟩ := h
    rw [Memory.lookup, if_neg (by omega), ih hrest (by omega)]

/-- The first cell of a canonical list, and that the list is canonical from that cell's own address on and its
rest from the next. -/
theorem wfFrom_cons {lo : Nat} {c : Host.Cell} {rest : Memory} (h : Memory.wfFrom lo (c :: rest) = true) :
    c.1 < 256 ∧ c.2 ≠ Memory.unlisted ∧ Memory.wfFrom c.1 (c :: rest) = true ∧
      Memory.wfFrom (c.1 + 1) rest = true := by
  simp only [Memory.wfFrom, Bool.and_eq_true, decide_eq_true_eq, bne_iff_ne] at h ⊢
  obtain ⟨⟨⟨-, hk⟩, hv⟩, hrest⟩ := h
  exact ⟨hk, hv, ⟨⟨⟨le_rfl, hk⟩, hv⟩, hrest⟩, hrest⟩

theorem lookup_cons_self (c : Host.Cell) (rest : Memory) : Memory.lookup c.1 (c :: rest) = c.2 := if_pos rfl

theorem lookup_cons_other {k : Nat} {c : Host.Cell} (rest : Memory) (h : c.1 ≠ k) :
    Memory.lookup k (c :: rest) = Memory.lookup k rest := if_neg h

/-- Where two canonical lists read alike, the first cell of one is not below the other's range. -/
theorem le_of_lookup_eq {lo lo' : Nat} {c : Host.Cell} {rest m : Memory}
    (h : Memory.wfFrom lo (c :: rest) = true) (hm : Memory.wfFrom lo' m = true)
    (heq : ∀ k < 256, Memory.lookup k (c :: rest) = Memory.lookup k m) : lo' ≤ c.1 := by
  by_contra hlt
  obtain ⟨hk, hv, -, -⟩ := wfFrom_cons h
  exact hv <| calc
    c.2 = Memory.lookup c.1 (c :: rest) := (lookup_cons_self c rest).symm
    _ = Memory.lookup c.1 m := heq c.1 hk
    _ = Memory.unlisted := lookup_below hm (Nat.lt_of_not_le hlt)

/-- Canonical lists that read alike are equal: their first cells have the same address and byte, and the
rests read alike above it. -/
theorem eq_of_lookup_eq {lo lo' : Nat} {m m' : Memory} (h : Memory.wfFrom lo m = true)
    (h' : Memory.wfFrom lo' m' = true) (heq : ∀ k < 256, Memory.lookup k m = Memory.lookup k m') : m = m' := by
  induction m generalizing lo lo' m' with
  | nil =>
    cases m' with
    | nil => rfl
    | cons c' rest' =>
      obtain ⟨hk, -⟩ := wfFrom_cons h'
      have hle : 256 ≤ c'.1 := le_of_lookup_eq h' (m := []) rfl fun k hk => (heq k hk).symm
      omega
  | cons c rest ih =>
    obtain ⟨hk, -, htight, hrest⟩ := wfFrom_cons h
    cases m' with
    | nil =>
      have hle : 256 ≤ c.1 := le_of_lookup_eq h (m := []) rfl heq
      omega
    | cons c' rest' =>
      obtain ⟨-, -, htight', hrest'⟩ := wfFrom_cons h'
      have haddr : c.1 = c'.1 := Nat.le_antisymm
        (le_of_lookup_eq h' htight fun k hk => (heq k hk).symm) (le_of_lookup_eq h htight' heq)
      have hbyte : c.2 = c'.2 := by
        rw [← lookup_cons_self c rest, heq c.1 hk, haddr, lookup_cons_self]
      have htail : rest = rest' := by
        refine ih hrest hrest' fun k hk => ?_
        by_cases hle : k ≤ c.1
        · rw [lookup_below hrest (by omega), lookup_below hrest' (by omega)]
        · rw [← lookup_cons_other rest (c := c) (by omega), heq k hk, lookup_cons_other rest' (by omega)]
      rw [Prod.ext haddr hbyte, htail]

/-- Settles O49: a read at every address is a look-up of every key below 256. -/
theorem equalReadsMeanEqualMemories : Obligations.EqualReadsMeanEqualMemories := by
  intro m m' h h' heq
  refine eq_of_lookup_eq h h' fun k hk => ?_
  have hread := heq (BitVec.ofNat 8 k)
  rwa [Memory.read, Memory.read, BitVec.toNat_ofNat, Nat.mod_eq_of_lt hk] at hread

end Sys2Proof.Machine
end

section
/-! PROOFS. The halt reason tells the cause: `stopReason` of the execute phase is what a running machine is
left with, after a step and an interrupt entry too (spec/60_exceptions.md R230, R233, R236). -/

namespace Sys2Proof.Machine

variable {i : Instr} {s t : State}

/-! ### Which instruction in which state has which reason -/

theorem stopReason_eq_haltInstruction : stopReason i s = some .haltInstruction ↔ i = .halt := by
  cases i with
  | call h => by_cases hp : s.pc = pcEnd <;> simp [stopReason, hp]
  | _ => simp [stopReason]

theorem stopReason_eq_memoryOutOfRange :
    stopReason i s = some .memoryOutOfRange ↔ s.pc = pcEnd ∧ i.length = 2 := by
  cases i with
  | call h => by_cases hp : s.pc = pcEnd <;> simp [stopReason, Instr.length, hp]
  | _ => simp [stopReason, Instr.length]

theorem stopReason_eq_stackOverflow :
    stopReason i s = some .stackOverflow ↔ (∃ h, i = .call h) ∧ s.pc ≠ pcEnd ∧ s.sp = 0#8 := by
  cases i with
  | call h => by_cases hp : s.pc = pcEnd <;> simp [stopReason, hp]
  | _ => simp [stopReason]

theorem stopReason_eq_stackUnderflow : stopReason i s = some .stackUnderflow ↔ i = .ret ∧ s.sp = 255#8 := by
  cases i with
  | call h => by_cases hp : s.pc = pcEnd <;> simp [stopReason, hp]
  | _ => simp [stopReason]

theorem stopReason_eq_illegalInstruction :
    stopReason i s = some .illegalInstruction ↔ i.mnemonic = "ILLEGAL" := by
  cases i with
  | call h => by_cases hp : s.pc = pcEnd <;> simp [stopReason, Instr.mnemonic, hp]
  | _ => simp [stopReason, Instr.mnemonic]

/-! ### The reason a machine is left with -/

/-- `t` is halted for the reason `o`, or runs with none. -/
def State.StoppedBy (t : State) (o : Option HaltReason) : Prop :=
  t.halted = o.isSome ∧ t.haltReason = o.getD .none

/-- A machine stopped for a reason other than NONE is marked, and its reason is that one. -/
theorem State.StoppedBy.haltMarked {o : Option HaltReason} (h : t.StoppedBy o) (ho : o ≠ some .none) :
    t.halted = true ↔ t.haltReason ≠ .none := by
  obtain ⟨hh, hr⟩ := h
  cases o with
  | none => simp [hh, hr]
  | some r => simpa [hh, hr] using ho

theorem State.StoppedBy.haltReason_iff {o : Option HaltReason} (h : t.StoppedBy o) {r : HaltReason} {q : Prop}
    (hr : r ≠ .none) (ho : o = some r ↔ q) : t.haltReason = r ↔ q := by
  obtain ⟨-, ht⟩ := h
  rw [← ho]
  cases o <;> simp [ht, hr.symm]

/-- An execute phase leaves a running machine stopped by its own reason. -/
theorem exec_stoppedBy (hh : s.halted = false) (hr : s.haltReason = .none) (h : exec i s = .next t) :
    t.StoppedBy (stopReason i s) := by
  obtain ⟨r, hs, rfl⟩ | ⟨rfl, -, rfl⟩ | ⟨hs, -, rfl⟩ := exec_next_cases h
  · rw [hs, raiseHalt_running r hh]; exact ⟨rfl, rfl⟩
  · exact ⟨hh, hr⟩
  · rw [hs]; exact ⟨(effect_halted i s).trans hh, (effect_haltReason i s).trans hr⟩

/-- Why a step halts: a fetch at END comes first, then the execute phase from one further (R91, R233). -/
def stepStopReason (s : State) : Option HaltReason :=
  match fetched? s with
  | none => some .memoryOutOfRange
  | some i => stopReason i (advance s)

theorem step_stoppedBy (hh : s.halted = false) (hr : s.haltReason = .none) (hw : s.waiting = false)
    (h : step s = .next t) : t.StoppedBy (stepStopReason s) := by
  obtain ⟨hstop, -⟩ | ⟨-, -, hn, h'⟩ | ⟨-, -, hp, h'⟩ | ⟨p, -, -, -, hp, h'⟩ := step_cases s
  · simp [hh, hw] at hstop
  · obtain ⟨hf, -⟩ := (needsAnswer_iff s).1 hn
    rw [h'] at h; cases h
    simpa [stepStopReason, hf, stopReason, State.StoppedBy] using And.intro hh hr
  · rw [h'] at h; cases h
    simp [stepStopReason, fetched?, hp, pcAddr?_end, State.StoppedBy]
  · rw [h'] at h
    have hstopped := exec_stoppedBy (s := advance s) hh hr h
    simpa [stepStopReason, fetched?, hp] using hstopped

/-- Why an interrupt entry halts: END comes before the stack bound (R236). -/
def interruptStopReason (s : State) : Option HaltReason :=
  if s.pc = pcEnd then some .memoryOutOfRange else if s.sp = 0#8 then some .stackOverflow else none

theorem interruptEntry_stoppedBy (hh : s.halted = false) (hr : s.haltReason = .none)
    (he : s.interruptEnabled = true) : (interruptEntry s).StoppedBy (interruptStopReason s) := by
  obtain ⟨hoff, -⟩ | ⟨-, -, hp, h⟩ | ⟨-, -, hp, hsp, h⟩ | ⟨p, -, -, hp, hsp, h⟩ := interruptEntry_cases s
  · simp [hh, he] at hoff
  · rw [h, interruptStopReason, if_pos hp]; exact ⟨rfl, rfl⟩
  · rw [h, interruptStopReason, if_neg hp, if_pos hsp]; exact ⟨rfl, rfl⟩
  · rw [h, interruptStopReason, if_neg (hp ▸ pcOfByte_ne_end p), if_neg hsp]; exact ⟨hh, hr⟩

/-! ### In the words of the statement -/

theorem pc_eq_end_iff (p : Fin 257) : p = pcEnd ↔ p.val = 256 := Fin.ext_iff

theorem pc_ne_end_iff (p : Fin 257) : p ≠ pcEnd ↔ p.val < 256 := by
  rw [Ne, pc_eq_end_iff]
  omega

theorem fetched?_eq_none : fetched? s = none ↔ s.pc.val = 256 := by
  rw [← pc_eq_end_iff]
  obtain ⟨hp, -⟩ | ⟨p, hp, -⟩ := pc_cases s.pc
  · simp [fetched?, hp, pcAddr?_end]
  · simp [fetched?, hp, pcOfByte_ne_end]

theorem advance_pc_val (h : fetched? s = some i) : (advance s).pc.val = s.pc.val + 1 := by
  have hne : s.pc.val ≠ 256 := fun he => by simp [fetched?_eq_none.2 he] at h
  exact pcNext_val (by omega)

/-- A reason that a fetch at END does not raise is that of the fetched instruction. -/
theorem stepStopReason_eq_some {r : HaltReason} (hr : r ≠ .memoryOutOfRange) :
    stepStopReason s = some r ↔ ∃ i, fetched? s = some i ∧ stopReason i (advance s) = some r := by
  cases hf : fetched? s <;> simp [stepStopReason, hf, hr.symm]

/-- A byte is missing: the first one at END, or the second at 255 (R230). -/
theorem stepStopReason_eq_memoryOutOfRange : stepStopReason s = some .memoryOutOfRange ↔
    s.pc.val = 256 ∨ s.pc.val = 255 ∧ ∃ i, fetched? s = some i ∧ i.length = 2 := by
  cases hf : fetched? s with
  | none => simp [stepStopReason, hf, fetched?_eq_none.1 hf]
  | some i =>
    have hval := advance_pc_val hf
    have hlt := (advance s).pc.isLt
    simp only [stepStopReason, hf, stopReason_eq_memoryOutOfRange, pc_eq_end_iff, hval]
    constructor
    · rintro ⟨hp, hlen⟩
      exact .inr ⟨by omega, i, rfl, hlen⟩
    · rintro (hp | ⟨hp, _, ⟨⟩, hlen⟩)
      · omega
      · exact ⟨by omega, hlen⟩

/-- CALL finds no room on the stack, its second byte being there (R230, R233). -/
theorem stepStopReason_eq_stackOverflow : stepStopReason s = some .stackOverflow ↔
    (∃ h, fetched? s = some (.call h)) ∧ s.pc.val < 255 ∧ s.sp.toNat = 0 := by
  rw [stepStopReason_eq_some (by decide)]
  constructor
  · rintro ⟨i, hf, hi⟩
    obtain ⟨⟨n, rfl⟩, hp, hsp⟩ := stopReason_eq_stackOverflow.1 hi
    rw [pc_ne_end_iff, advance_pc_val hf] at hp
    exact ⟨⟨n, hf⟩, by omega, BitVec.toNat_eq.1 hsp⟩
  · rintro ⟨⟨n, hf⟩, hp, hsp⟩
    have hlt : (advance s).pc.val < 256 := by rw [advance_pc_val hf]; omega
    exact ⟨_, hf, stopReason_eq_stackOverflow.2 ⟨⟨n, rfl⟩, (pc_ne_end_iff _).2 hlt, BitVec.toNat_eq.2 hsp⟩⟩

theorem interruptStopReason_eq_memoryOutOfRange :
    interruptStopReason s = some .memoryOutOfRange ↔ s.pc.val = 256 := by
  by_cases hp : s.pc = pcEnd
  · simp [interruptStopReason, hp, pcEnd]
  · simpa [interruptStopReason, hp] using mt (pc_eq_end_iff s.pc).2 hp

theorem interruptStopReason_eq_stackOverflow :
    interruptStopReason s = some .stackOverflow ↔ s.pc.val < 256 ∧ s.sp.toNat = 0 := by
  rw [← pc_ne_end_iff]
  by_cases hp : s.pc = pcEnd
  · simp [interruptStopReason, hp]
  · simp [interruptStopReason, hp, BitVec.toNat_eq]

theorem interruptStopReason_mem (s : State) :
    (interruptStopReason s).getD .none ∈ [HaltReason.none, .memoryOutOfRange, .stackOverflow] := by
  unfold interruptStopReason
  split
  · decide
  · split <;> decide

theorem interruptStopReason_ne_none (s : State) : interruptStopReason s ≠ some .none := by
  unfold interruptStopReason
  split
  · simp
  · split <;> simp

theorem stepStopReason_ne_none (s : State) : stepStopReason s ≠ some .none := by
  unfold stepStopReason
  split
  · simp
  · exact stopReason_ne_none _ _

/-- Settles O41: an execute phase, a step and an interrupt entry each leave a running machine stopped by the
reason computed for it, and each reason is computed exactly for its cause. -/
theorem haltReasonTellsTheCause : Obligations.HaltReasonTellsTheCause := by
  refine ⟨fun i s t hh hr h => ?_, fun s t hh hr hw h => ?_, fun s t hh hr he h => ?_⟩
  · have ht := exec_stoppedBy hh hr h
    refine ⟨ht.haltMarked (stopReason_ne_none i s), ht.haltReason_iff (by decide) stopReason_eq_haltInstruction,
      ht.haltReason_iff (by decide) ?_, ht.haltReason_iff (by decide) ?_, ht.haltReason_iff (by decide) ?_,
      ht.haltReason_iff (by decide) stopReason_eq_illegalInstruction⟩
    · rw [stopReason_eq_memoryOutOfRange, pc_eq_end_iff]
    · rw [stopReason_eq_stackOverflow, pc_ne_end_iff, BitVec.toNat_eq]; rfl
    · rw [stopReason_eq_stackUnderflow, BitVec.toNat_eq]; rfl
  · have ht := step_stoppedBy hh hr hw h
    refine ⟨ht.haltMarked (stepStopReason_ne_none s), ht.haltReason_iff (by decide) ?_,
      ht.haltReason_iff (by decide) stepStopReason_eq_memoryOutOfRange,
      ht.haltReason_iff (by decide) stepStopReason_eq_stackOverflow,
      ht.haltReason_iff (by decide) ?_, ht.haltReason_iff (by decide) ?_⟩
    · simp [stepStopReason_eq_some, stopReason_eq_haltInstruction]
    · simp [stepStopReason_eq_some, stopReason_eq_stackUnderflow, BitVec.toNat_eq]
    · simp [stepStopReason_eq_some, stopReason_eq_illegalInstruction]
  · subst h
    have ht := interruptEntry_stoppedBy hh hr he
    have ⟨_, hreason⟩ := ht
    exact ⟨ht.haltMarked (interruptStopReason_ne_none s),
      ht.haltReason_iff (by decide) interruptStopReason_eq_memoryOutOfRange,
      ht.haltReason_iff (by decide) interruptStopReason_eq_stackOverflow,
      hreason ▸ interruptStopReason_mem s⟩

end Sys2Proof.Machine
end

section
/-! PROOFS. Memory and the stack: the primitives at and within their bounds, that bytes come back last first,
the capacity of 255, and which instruction writes which cell (spec/20_memory.md R50 to R53; 90_conflicts.md C3). -/

namespace Sys2Proof.Machine

variable {s s' t : State} {v : Byte} {vs : List Byte}

/-! ### Push and Pop -/

theorem push_at_bound (v : Byte) (h : s.sp.toNat = 0) : push v s = .error .stackOverflow := by
  obtain ⟨-, hp⟩ | ⟨hsp, -⟩ := push_cases v s
  · exact hp
  · exact absurd (BitVec.eq_of_toNat_eq h) hsp

/-- Above the bound `Push` writes the cell at the new SP, and nothing but memory and SP (R50). -/
theorem push_above_bound (v : Byte) (h : 0 < s.sp.toNat) : ∃ t, push v s = .ok t ∧
    t.sp.toNat = s.sp.toNat - 1 ∧ (∀ addr : Byte, t.mem.read addr = if addr = t.sp then v else s.mem.read addr) ∧
    t = { s with mem := t.mem, sp := t.sp } := by
  obtain ⟨hsp, -⟩ | ⟨-, hp⟩ := push_cases v s
  · simp [hsp] at h
  · have hmove := push_sp hp
    exact ⟨_, hp, by omega, fun addr => read_write s.mem (s.sp - 1#8) addr v, rfl⟩

theorem pop_at_bound (h : s.sp.toNat = 255) : pop s = .error .stackUnderflow := by
  obtain ⟨-, hp⟩ | ⟨hsp, -⟩ := pop_cases s
  · exact hp
  · exact absurd (BitVec.eq_of_toNat_eq h) hsp

theorem pop_below_bound (h : s.sp.toNat < 255) : pop s = .ok (s.mem.read s.sp, setSp (s.sp + 1#8) s) := by
  obtain ⟨hsp, -⟩ | ⟨-, hp⟩ := pop_cases s
  · simp [hsp] at h
  · exact hp

/-- Settles O29: one lemma for each primitive at its bound and away from it. -/
theorem pushAndPopPrimitives : Obligations.PushAndPopPrimitives :=
  ⟨fun v _ => ⟨push_at_bound v, push_above_bound v⟩,
    fun _ => ⟨pop_at_bound, fun h => ⟨_, pop_below_bound h, pop_sp (pop_below_bound h), rfl⟩⟩⟩

/-! ### Pushing and popping a list of bytes -/

theorem pushAll_cons_ok (vs : List Byte) (h : push v s = .ok s') : pushAll (v :: vs) s = pushAll vs s' := by
  simp [pushAll, h]

theorem pushAll_cons_error {r : HaltReason} (vs : List Byte) (h : push v s = .error r) :
    pushAll (v :: vs) s = .error r := by
  simp [pushAll, h]

/-- Pushes write below SP only: the cells from SP on, which hold what was pushed before, are kept. -/
theorem pushAll_read_of_sp_le {addr : Byte} (h : pushAll vs s = .ok t) (hle : s.sp.toNat ≤ addr.toNat) :
    t.mem.read addr = s.mem.read addr := by
  induction vs generalizing s with
  | nil => cases h; rfl
  | cons v vs ih =>
    obtain hsp | hsp := Nat.eq_zero_or_pos s.sp.toNat
    · simp [pushAll_cons_error vs (push_at_bound v hsp)] at h
    · obtain ⟨s', hpush, hmove, hread, -⟩ := push_above_bound v hsp
      have hne : addr ≠ s'.sp := by
        rintro rfl
        omega
      rw [pushAll_cons_ok vs hpush] at h
      rw [ih h (by omega), hread, if_neg hne]

/-- `k + 1` pops give bytes when the first pop gives one and the `k` pops after it the rest. -/
theorem popTimes_succ_eq_ok {k : Nat} : popTimes (k + 1) s = .ok (vs, t) ↔
    ∃ v us s', pop s = .ok (v, s') ∧ popTimes k s' = .ok (us, t) ∧ vs = v :: us := by
  constructor
  · intro h
    rw [popTimes] at h
    split at h
    · cases h
    · next v s' hp =>
      split at h
      · cases h
      · next us u hk =>
        cases h
        exact ⟨v, us, s', hp, hk, rfl⟩
  · rintro ⟨v, us, s', hp, hk, rfl⟩
    simp [popTimes, hp, hk]

/-- One more pop gives one more byte, after those popped before. -/
theorem popTimes_succ_of_pop_last {k : Nat} (h : popTimes k s = .ok (vs, s')) (hpop : pop s' = .ok (v, t)) :
    popTimes (k + 1) s = .ok (vs ++ [v], t) := by
  induction k generalizing s vs with
  | zero => cases h; exact popTimes_succ_eq_ok.2 ⟨v, [], t, hpop, rfl, rfl⟩
  | succ k ih =>
    obtain ⟨w, us, u, hfirst, hrest, rfl⟩ := popTimes_succ_eq_ok.1 h
    exact popTimes_succ_eq_ok.2 ⟨w, us ++ [v], u, hfirst, ih hrest, rfl⟩

/-- Settles O30, by induction on the bytes: the first byte pushed lies where no later push writes, so it is
still there for the last pop. -/
theorem stackIsLastInFirstOut : Obligations.StackIsLastInFirstOut := by
  intro vs
  induction vs with
  | nil => exact fun s _ => ⟨s, rfl, rfl⟩
  | cons v vs ih =>
    intro s hlen
    rw [List.length_cons] at hlen
    obtain ⟨s', hpush, hmove, hread, -⟩ := push_above_bound v (s := s) (by omega)
    obtain ⟨t, hpushes, hpops⟩ := ih s' (by omega)
    refine ⟨t, (pushAll_cons_ok vs hpush).trans hpushes, ?_⟩
    have hbyte : t.mem.read s'.sp = v := by
      rw [pushAll_read_of_sp_le hpushes le_rfl, hread, if_pos rfl]
    have hback : s'.sp + 1#8 = s.sp := by bv_omega
    have hlast : pop (setSp s'.sp t) = .ok (v, setSp s.sp t) := by
      have hbelow : (setSp s'.sp t).sp.toNat < 255 := by
        have hlt := s.sp.isLt
        rw [setSp_sp]
        omega
      rw [pop_below_bound hbelow, setSp_mem, setSp_sp, hbyte, hback]
      rfl
    rw [List.reverse_cons]
    exact popTimes_succ_of_pop_last hpops hlast

/-- One byte more than SP counts is refused (R52). -/
theorem pushAll_overflow (h : s.sp.toNat < vs.length) : pushAll vs s = .error .stackOverflow := by
  induction vs generalizing s with
  | nil => simp at h
  | cons v vs ih =>
    rw [List.length_cons] at h
    obtain hsp | hsp := Nat.eq_zero_or_pos s.sp.toNat
    · exact pushAll_cons_error vs (push_at_bound v hsp)
    · obtain ⟨s', hpush, hmove, -⟩ := push_above_bound v hsp
      rw [pushAll_cons_ok vs hpush]
      exact ih (by omega)

/-- Settles O31: SP counts the pushes that fit. -/
theorem stackHoldsAtMost255Bytes : Obligations.StackHoldsAtMost255Bytes := by
  intro vs s hs
  have hsp : s.sp.toNat = 255 := by rw [hs]; rfl
  refine ⟨fun hle => ?_, fun hlt => pushAll_overflow (hsp ▸ hlt)⟩
  obtain ⟨t, ht, -⟩ := stackIsLastInFirstOut vs s (hsp ▸ hle)
  exact ⟨t, ht⟩

/-! ### Which instruction writes which cell -/

theorem directAddr_toNat (d : Nibble) : (directAddr d).toNat = d.toNat :=
  BitVec.toNat_setWidth_of_le (by decide)

/-- Settles O39: the effects of STORE and CALL write one cell each and the other effects none, and neither a
halt, a wait nor `UpdateZN()` writes memory. -/
theorem onlyStoreAndCallWriteMemory : Obligations.OnlyStoreAndCallWriteMemory := by
  intro i s t addr h hstore hcall
  have heff : (effect i s).mem.read addr = s.mem.read addr := by
    cases i with
    | store d =>
      have hne : addr ≠ directAddr d := by
        rintro rfl
        exact hstore d rfl (directAddr_toNat d)
      exact read_write_other s.mem s.a hne
    | call n => exact read_write_other s.mem (returnAddr (pcByte s)) (hcall n rfl)
    | _ => rfl
  exact exec_keeps_field (f := fun u => u.mem.read addr) (fun _ => rfl) rfl (fun _ => rfl) heff h

end Sys2Proof.Machine
end

section
/-! PROOFS. The decoder by the two nibbles of its byte: the opcode field picks the row, and the operand field is
an operand, is ignored, or in the 0xF group picks the row too (spec/30_encoding.md R71, R74, R77 to R79). -/

namespace Sys2Proof

/-! ### A byte as opcode field and operand field -/

@[simp] theorem opcodeField_append (h x : Nibble) : opcodeField (h ++ x) = h :=
  BitVec.extractLsb'_append_eq_left

@[simp] theorem operandField_append (h x : Nibble) : operandField (h ++ x) = x :=
  BitVec.extractLsb'_append_eq_right

theorem opcodeField_append_operandField (b : Byte) : opcodeField b ++ operandField b = b :=
  (BitVec.extractLsb'_append_extractLsb'_eq_extractLsb' rfl).trans BitVec.extractLsb'_eq_self

theorem exists_eq_append (b : Byte) : ∃ h x : Nibble, b = h ++ x :=
  ⟨_, _, (opcodeField_append_operandField b).symm⟩

theorem toNat_append_nibbles (h x : Nibble) : (h ++ x).toNat = h.toNat * 16 + x.toNat := by
  rw [BitVec.toNat_append, ← Nat.shiftLeft_add_eq_or_of_lt x.isLt, Nat.shiftLeft_eq]

theorem toNat_append_div (h x : Nibble) : (h ++ x).toNat / 16 = h.toNat := by
  have hx := x.isLt
  rw [toNat_append_nibbles]
  omega

/-- The mask of the rows outside the 0xF group keeps the opcode field and clears the other. -/
theorem append_and_0xF0 (h x : Nibble) : (h ++ x : Byte) &&& 0xF0 = h ++ 0#4 := by
  rw [show (0xF0 : Byte) = BitVec.allOnes 4 ++ 0#4 from rfl, BitVec.and_append, BitVec.and_allOnes, BitVec.and_zero]

/-! ### The 0xF group -/

theorem decodeFirst_0xF_append (x : Nibble) : decodeFirst (0xF#4 ++ x) = decodeSys x := by
  simp [decodeFirst]

theorem decodeSys_length (f : Nibble) : (decodeSys f).length = 1 := by
  revert f; decide

theorem encodeFirst_decodeSys (f : Nibble) : encodeFirst (decodeSys f) = 0xF#4 ++ f := by
  revert f; decide

theorem decodeSys_illegal {f : Nibble} (hf : 9 ≤ f.toNat) : (decodeSys f).mnemonic = "ILLEGAL" := by
  revert f; decide

/-! ### The opcode map -/

theorem decodeFirst_length_append (h x : Nibble) :
    (decodeFirst (h ++ x)).length = if h.toNat ∈ [0x0, 0xA, 0xB, 0xC, 0xD] then 2 else 1 := by
  simp only [decodeFirst, opcodeField_append, operandField_append]
  obtain ⟨k⟩ := h
  fin_cases k
  -- the last opcode is the 0xF group's
  pick_goal 16
  · exact decodeSys_length x
  all_goals rfl

theorem decodeFirst_illegal {b : Byte} (hb : 0xF9 ≤ b.toNat) : (decodeFirst b).mnemonic = "ILLEGAL" := by
  obtain ⟨h, x, rfl⟩ := exists_eq_append b
  rw [toNat_append_nibbles] at hb
  obtain rfl : h = 0xF#4 := by bv_omega
  rw [decodeFirst_0xF_append]
  exact decodeSys_illegal (by bv_omega)

/-- Settles O2: the rows by the two fields of the byte, the 0xF group byte by byte. -/
theorem firstByteDecodesByOpcodeMap : Obligations.FirstByteDecodesByOpcodeMap := by
  refine ⟨fun x => by simp [decodeFirst], rfl, rfl, rfl, rfl, rfl, rfl, rfl, rfl, rfl,
    fun b hb => decodeFirst_illegal hb, fun b => ?_⟩
  obtain ⟨h, x, rfl⟩ := exists_eq_append b
  rw [toNat_append_div]
  exact decodeFirst_length_append h x

/-! ### Encoding what was decoded -/

/-- The opcode field comes back, and the operand field unless R74 lists it as ignored. -/
theorem encodeFirst_decodeFirst_append (h x : Nibble) : encodeFirst (decodeFirst (h ++ x)) =
    h ++ if h.toNat ∈ [0x0, 0x7, 0x8, 0x9, 0xA, 0xB, 0xC, 0xE] then 0#4 else x := by
  simp only [decodeFirst, opcodeField_append, operandField_append]
  obtain ⟨k⟩ := h
  fin_cases k
  -- the last opcode is the 0xF group's
  pick_goal 16
  · exact encodeFirst_decodeSys x
  all_goals simp [encodeFirst]

/-- Settles O3: clearing the operand field is the mask 0xF0. -/
theorem encodeOfDecodeClearsIgnoredNibble : Obligations.EncodeOfDecodeClearsIgnoredNibble := by
  intro b
  obtain ⟨h, x, rfl⟩ := exists_eq_append b
  rw [encodeFirst_decodeFirst_append, toNat_append_div, append_and_0xF0]
  split <;> rfl

/-! ### The rows of the opcode table -/

/-- Every instruction's own encoding lies in a row with its mnemonic and length (R77). -/
theorem tableRow : ∀ i : Instr, Laws.TableRow.Statement i
  | .load => Laws.TableRow.load
  | .store d => Laws.TableRow.store d
  | .add d => Laws.TableRow.add d
  | .sub d => Laws.TableRow.sub d
  | .and d => Laws.TableRow.and d
  | .or d => Laws.TableRow.or d
  | .xor d => Laws.TableRow.xor d
  | .not => Laws.TableRow.not
  | .shl => Laws.TableRow.shl
  | .shr => Laws.TableRow.shr
  | .jmp => Laws.TableRow.jmp
  | .jz => Laws.TableRow.jz
  | .jnz => Laws.TableRow.jnz
  | .call h => Laws.TableRow.call h
  | .ret => Laws.TableRow.ret
  | .halt => Laws.TableRow.halt
  | .inp => Laws.TableRow.inp
  | .out => Laws.TableRow.out
  | .disp => Laws.TableRow.disp
  | .curs => Laws.TableRow.curs
  | .clr => Laws.TableRow.clr
  | .gmode => Laws.TableRow.gmode
  | .gpix => Laws.TableRow.gpix
  | .scroll => Laws.TableRow.scroll
  | .illegalF9 => Laws.TableRow.illegalF9
  | .illegalFA x => Laws.TableRow.illegalFA x
  | .illegalFC x => Laws.TableRow.illegalFC x

theorem OpcodeRow.covers_iff (r : OpcodeRow) (b : Byte) : r.covers b = true ↔ b &&& r.mask = r.pattern :=
  beq_iff_eq

/-- A row that covers a byte outside the 0xF group looks at the opcode field only. -/
theorem mask_of_covers_append_zero : ∀ r ∈ opcodeTable, ∀ h : Nibble, h ≠ 0xF#4 →
    r.covers (h ++ 0#4) = true → r.mask = 0xF0 := by
  decide

/-- A row that covers the encoding of what a byte decodes to covers the byte: the nibble that the encoder
clears is outside the row's mask. -/
theorem covers_of_covers_encodeFirst {r : OpcodeRow} (hr : r ∈ opcodeTable) {b : Byte}
    (hc : r.covers (encodeFirst (decodeFirst b)) = true) : r.covers b = true := by
  obtain ⟨h, x, rfl⟩ := exists_eq_append b
  rw [encodeFirst_decodeFirst_append] at hc
  split at hc
  case isTrue hignored =>
    have hF : h ≠ 0xF#4 := by rintro rfl; revert hignored; decide
    have hmask := mask_of_covers_append_zero r hr h hF hc
    rw [OpcodeRow.covers_iff, hmask, append_and_0xF0] at hc ⊢
    exact hc
  case isFalse => exact hc

/-- The patterns of two rows differ in a bit that both rows look at. -/
def OpcodeRow.Apart (r r' : OpcodeRow) : Prop := r.pattern &&& r'.mask ≠ r'.pattern &&& r.mask

theorem OpcodeRow.Apart.not_covers {r r' : OpcodeRow} (hapart : r.Apart r') {b : Byte}
    (h : r.covers b = true) : ¬ r'.covers b = true := by
  intro h'
  rw [OpcodeRow.covers_iff] at h h'
  exact hapart (by rw [← h, ← h', BitVec.and_assoc, BitVec.and_assoc, BitVec.and_comm r.mask])

theorem opcodeTable_pairwise_apart : opcodeTable.Pairwise OpcodeRow.Apart := by
  unfold OpcodeRow.Apart
  decide

/-- In a list whose elements pairwise exclude each other for `p`, one element that meets `p` is all that does. -/
theorem filter_eq_singleton {α : Type} {R : α → α → Prop} {p : α → Bool} {l : List α} {a : α}
    (hl : l.Pairwise R) (hR : ∀ {x y}, R x y → p x = true → ¬ p y = true) (ha : a ∈ l) (hp : p a = true) :
    l.filter p = [a] := by
  induction hl with
  | nil => cases ha
  | @cons x l hx hl ih =>
    obtain rfl | ha := List.mem_cons.1 ha
    · rw [List.filter_cons_of_pos hp, List.filter_eq_nil_iff.2 fun y hy => hR (hx y hy) hp]
    · rw [List.filter_cons_of_neg fun hpx => hR (hx a ha) hpx hp, ih ha]

/-- Settles O4: the byte's own row covers it, and any two rows are apart. -/
theorem opcodeRowsPartitionTheBytes : Obligations.OpcodeRowsPartitionTheBytes := by
  intro b
  obtain ⟨r, hr, hc, hmnemonic, hlength⟩ := tableRow (decodeFirst b)
  have hrow : (opcodeTable.filter fun r => r.covers b) = [r] :=
    filter_eq_singleton opcodeTable_pairwise_apart (fun hapart h => hapart.not_covers h) hr
      (covers_of_covers_encodeFirst hr hc)
  rw [hrow, List.map_singleton, hmnemonic, hlength]

end Sys2Proof
end

section
/-! PROOFS. A running machine whose execute phase has a `stopReason` halts for it, and nothing else changes
(spec/60_exceptions.md R231, R232); the illegal bytes (spec/30_encoding.md R78; D5). -/

namespace Sys2Proof.Machine

theorem exec_haltedFrom {i : Instr} {s : State} {r : HaltReason} (hh : s.halted = false)
    (hstop : stopReason i s = some r) : ∃ t, exec i s = .next t ∧ s.haltedFrom t r := by
  refine ⟨updateZN (setHalt true r s), ?_, updateZN_flagsOfA _, rfl⟩
  rw [exec_eq_executed, executed, hstop, ← raiseHalt_running r hh]

theorem exec_illegal {i : Instr} {s : State} (hh : s.halted = false) (hi : i.mnemonic = "ILLEGAL") :
    ∃ t, exec i s = .next t ∧ s.haltedFrom t .illegalInstruction :=
  exec_haltedFrom hh (stopReason_eq_illegalInstruction.2 hi)

/-- Settles O20: the three rows of the table, and the bytes 0xF9 to 0xFF that decode to them. -/
theorem illegalBytesHalt : Obligations.IllegalBytesHalt := fun _ hh =>
  ⟨exec_illegal hh rfl, fun _ => exec_illegal hh rfl, fun _ => exec_illegal hh rfl,
    fun _ hb => exec_illegal hh (decodeFirst_illegal hb)⟩

end Sys2Proof.Machine
end

section
/-! PROOFS. What each kind of fetch makes of a step: of a byte, at END, of a halted machine and of an IN without
an answer, and that an answer makes one step of the IN whenever it comes (spec/40_execution_cycle.md R90 to R99). -/

namespace Sys2Proof.Machine

variable {s : State} {p : Byte}

/-! ### The step by what is fetched -/

theorem pcNext_pcOfByte_val (p : Byte) : (pcNext (pcOfByte p)).val = p.toNat + 1 := pcNext_val p.isLt

theorem fetched?_of_byte (hp : s.pc = pcOfByte p) : fetched? s = some (decodeFirst (s.mem.read p)) := by
  simp [fetched?, hp]

theorem needsAnswer_of_byte (hp : s.pc = pcOfByte p) :
    s.needsAnswer = true ↔ decodeFirst (s.mem.read p) = .inp ∧ s.hostInput = [] := by
  rw [needsAnswer_iff, fetched?_of_byte hp, Option.some_inj]

theorem step_of_stopped (h : s.halted = true ∨ s.waiting = true) : step s = .next s :=
  if_pos (by simpa using h)

theorem step_of_needsAnswer (hh : s.halted = false) (hw : s.waiting = false) (hn : s.needsAnswer = true) :
    step s = .next (setInWait .step s) := by
  simp [step, cycle, hh, hw, hn]

theorem step_at_end (hh : s.halted = false) (hw : s.waiting = false) (hp : s.pc = pcEnd) :
    step s = .next (updateZN (setHalt true .memoryOutOfRange s)) := by
  simp [step, cycle, hh, hw, needsAnswer_at_end hp, fetched?, hp, pcAddr?_end, haltStep_eq, raiseHalt]

theorem step_of_byte (hh : s.halted = false) (hw : s.waiting = false) (hn : s.needsAnswer = false)
    (hp : s.pc = pcOfByte p) : step s = exec (decodeFirst (s.mem.read p)) (advance s) := by
  simp [step, cycle, hh, hw, hn, fetched?_of_byte hp]

theorem hostStep_of_step {t : State} (h : step s = .next t) : hostStep s = t := by
  simp [hostStep, h]

/-- Settles O5: below END a step with its answer is `exec` after `advance`, whose PC is one further. -/
theorem stepRunsDecodedInstruction : Obligations.StepRunsDecodedInstruction := by
  rintro s p i hh hw hval rfl hin
  have hp : s.pc = pcOfByte p := Fin.ext hval
  have hn : s.needsAnswer = false := Bool.eq_false_iff.2 fun h => by
    obtain ⟨hi, hq⟩ := (needsAnswer_of_byte hp).1 h
    exact hin hi hq
  exact ⟨pcNext s.pc, hp ▸ pcNext_pcOfByte_val p, step_of_byte hh hw hn hp⟩

/-- Settles O6: the halt writes its two fields, and the step's `UpdateZN()` makes the flags those of A. -/
theorem fetchAtEndHalts : Obligations.FetchAtEndHalts := fun s hh hw hp =>
  ⟨_, step_at_end hh hw ((pc_eq_end_iff s.pc).2 hp), updateZN_flagsOfA _, rfl⟩

theorem runLoop_halted (cap count : Nat) (hh : s.halted = true) : runLoop cap count s = .returned count s := by
  cases cap with
  | zero => rfl
  | succ cap => simp [runLoop, hh]

/-- Settles O7: each of the three tests `halted` first. -/
theorem haltedMachineKeepsItsState : Obligations.HaltedMachineKeepsItsState := fun _ b hh =>
  ⟨step_of_stopped (.inl hh), runLoop_halted _ 0 hh, hostExecute_halted b hh⟩

/-! ### The answer before the step and during the wait -/

/-- The host's answer at the end of those no IN has taken yet: what `hostAnswer` does between steps (R105). -/
def queueAnswer (inp : Option Byte) (s : State) : State := setHostInput (s.hostInput ++ [inp]) s

theorem hostAnswer_of_not_waiting (inp : Option Byte) (hw : s.waiting = false) :
    hostAnswer inp s = queueAnswer inp s := by
  simp [hostAnswer, queueAnswer, (waiting_eq_false s).1 hw]

theorem hostAnswer_of_step_or_execute (inp : Option Byte) (h : s.inWait = .step ∨ s.inWait = .execute) :
    hostAnswer inp s = completeIn inp s := by
  rcases h with h | h <;> simp [hostAnswer, h]

@[simp] theorem queueAnswer_needsAnswer (inp : Option Byte) (s : State) :
    (queueAnswer inp s).needsAnswer = false := by
  simp [State.needsAnswer, queueAnswer]

/-- The wait of a step and that of a `run()` come by their answer to the same state (R97, R102). -/
theorem completeIn_setInWait {w : InWait} (inp : Option Byte) (hw : s.inWait = .none) (hne : w ≠ .execute) :
    completeIn inp (setInWait w s) = updateZN (takeAnswer inp (advance s)) := by
  obtain ⟨h, -⟩ | ⟨-, h⟩ := completeIn_cases inp (setInWait w s)
  · exact absurd h hne
  · rw [h, ← hw]; rfl

/-- An IN with its answer given beforehand takes it and leaves no answer behind (R160). -/
theorem execIn_queueAnswer (inp : Option Byte) (hq : s.hostInput = []) :
    execIn (queueAnswer inp s) = .next (updateZN (takeAnswer inp s)) :=
  calc execIn (queueAnswer inp s)
    _ = .next (updateZN (takeAnswer inp (setHostInput [] s))) := by rw [queueAnswer, hq]; rfl
    _ = .next (updateZN (takeAnswer inp s)) := by rw [← hq]; rfl

/-- So does the step of that IN (R97; D14). -/
theorem step_queueAnswer_of_needsAnswer (inp : Option Byte) (hh : s.halted = false) (hw : s.waiting = false)
    (hn : s.needsAnswer = true) :
    step (queueAnswer inp s) = .next (updateZN (takeAnswer inp (advance s))) := by
  obtain ⟨hp, -⟩ | ⟨p, hp, -⟩ := pc_cases s.pc
  · simp [needsAnswer_at_end hp] at hn
  · obtain ⟨hi, hq⟩ := (needsAnswer_of_byte hp).1 hn
    calc step (queueAnswer inp s)
      _ = exec (decodeFirst (s.mem.read p)) (queueAnswer inp (advance s)) :=
          step_of_byte (s := queueAnswer inp s) hh hw (queueAnswer_needsAnswer inp s) hp
      _ = execIn (queueAnswer inp (advance s)) := by rw [hi]; rfl
      _ = .next (updateZN (takeAnswer inp (advance s))) := execIn_queueAnswer inp hq

/-- Settles O8: the wait and the answer given before the step come to the same state. -/
theorem inWaitsForTheHost : Obligations.InWaitsForTheHost := by
  intro s p hh hw hval hbyte hq
  have hp : s.pc = pcOfByte p := Fin.ext hval
  have hn : s.needsAnswer = true := (needsAnswer_of_byte hp).2 ⟨by rw [hbyte]; rfl, hq⟩
  refine ⟨_, step_of_needsAnswer hh hw hn, rfl, rfl, fun inp => ?_⟩
  refine ⟨updateZN (takeAnswer inp (advance s)), ?_, ?_, ?_, ?_, updateZN_flagsOfA _, rfl⟩
  · rw [hostAnswer_of_step_or_execute inp (.inl rfl)]
    exact completeIn_setInWait inp ((waiting_eq_false s).1 hw) nofun
  · rw [hostAnswer_of_not_waiting inp hw]
    exact step_queueAnswer_of_needsAnswer inp hh hw hn
  · exact answerValue_eq inp
  · exact (congrArg (fun q => (pcNext q).val) hp).trans (pcNext_pcOfByte_val p)

end Sys2Proof.Machine
end

section
/-! PROOFS. The host's calls around a step: `load_program`, `fetch()` and then `execute(b)`, the wait and what ends
it, and `run()` (spec/40_execution_cycle.md section 2, R98 to R105). -/

namespace Sys2Proof.Machine

variable {s : State}

/-! ### Loading a program -/

/-- What the cells hold after bytes were written that fit from address `i` on (R100). -/
theorem read_writeFrom (p : List Byte) {i : Nat} (m : Memory) (addr : Byte) (hfit : i + p.length ≤ 256) :
    (writeFrom i p m).read addr =
      if i ≤ addr.toNat then (p[addr.toNat - i]?).getD (m.read addr) else m.read addr := by
  induction p generalizing i m with
  | nil => simp [writeFrom]
  | cons v p ih =>
    simp only [List.length_cons] at hfit
    have haddr : addr = BitVec.ofNat 8 i ↔ addr.toNat = i := by
      rw [BitVec.toNat_eq, BitVec.toNat_ofNat, Nat.mod_eq_of_lt (by omega)]
    rw [writeFrom, ih _ (by omega)]
    simp only [read_write, haddr]
    obtain hlt | heq | hgt := Nat.lt_trichotomy addr.toNat i
    · rw [if_neg (by omega), if_neg (by omega), if_neg (by omega)]
    · simp [heq]
    · have hidx : addr.toNat - i = addr.toNat - (i + 1) + 1 := by omega
      rw [if_pos (by omega), if_neg (by omega), if_pos (by omega), hidx, List.getElem?_cons_succ]

/-- Settles O54: the first 256 bytes fit from address 0 on, and every address lies among those 256. -/
theorem loadProgramWritesItsBytesOnly : Obligations.LoadProgramWritesItsBytesOnly := by
  refine fun p s => ⟨fun addr => ?_, rfl, decide_eq_true_iff⟩
  have hfit : 0 + (p.take 256).length ≤ 256 := by
    rw [Nat.zero_add, List.length_take]
    exact Nat.min_le_left _ _
  calc (loadProgram p s).1.mem.read addr
    _ = ((p.take 256)[addr.toNat]?).getD (s.mem.read addr) := read_writeFrom (p.take 256) s.mem addr hfit
    _ = (p[addr.toNat]?).getD (s.mem.read addr) := by rw [List.getElem?_take_of_lt addr.isLt]

/-! ### `fetch()` and then `execute(b)` -/

theorem hostFetch_at_end (hp : s.pc = pcEnd) : hostFetch s = (0xF0, raiseHalt .memoryOutOfRange s) := by
  simp [hostFetch, hp, pcAddr?_end]

theorem hostFetch_of_byte {p : Byte} (hh : s.halted = false) (hp : s.pc = pcOfByte p) :
    hostFetch s = (s.mem.read p, advance s) := by
  simp [hostFetch, hp, hh]

theorem hostFetch_halted (hh : s.halted = true) : (hostFetch s).2 = s := by
  unfold hostFetch
  split
  · exact raiseHalt_halted _ hh
  · exact if_pos hh

theorem exec_in_without_answer (hq : s.hostInput = []) : exec .inp s = .next (setInWait .execute s) := by
  simp [exec, execIn, hq]

/-- `execute(0xF1)` without an answer begins a wait of its own (R97, R99; log 2). -/
theorem hostExecute_in {b : Byte} (hh : s.halted = false) (hb : decodeFirst b = .inp) (hq : s.hostInput = []) :
    hostExecute b s = setInWait .execute s := by
  simp [hostExecute, hh, hb, exec_in_without_answer hq]

/-- The two calls and a step that completes come to the same state (D22); at END the step's `UpdateZN()`, which
the calls leave out, changes no flag. -/
theorem hostExecute_hostFetch (hend : s.EndAgrees) (hw : s.waiting = false)
    (hdone : s.halted = true ∨ s.needsAnswer = false) :
    step s = .next (hostExecute (hostFetch s).1 (hostFetch s).2) := by
  cases hh : s.halted with
  | true => rw [hostFetch_halted hh, hostExecute_halted _ hh, step_of_stopped (.inl hh)]
  | false =>
    obtain ⟨hp, -⟩ | ⟨p, hp, -⟩ := pc_cases s.pc
    · have hzn : updateZN (setHalt true .memoryOutOfRange s) = setHalt true .memoryOutOfRange s :=
        updateZN_of_flagsAgree (hend hp)
      rw [step_at_end hh hw hp, hzn, hostFetch_at_end hp, raiseHalt_running _ hh, hostExecute_halted _ rfl]
    · have hn : s.needsAnswer = false := hdone.resolve_left (by simp [hh])
      rw [step_of_byte hh hw hn hp, hostFetch_of_byte hh hp]
      exact exec_eq_hostExecute _ (s := advance s) hh

/-- Settles O51: at an IN without an answer the step waits before its fetch and `execute(0xF1)` after it, and the
answer has the fetch to make in the first case only. -/
theorem fetchThenExecuteIsOneStep : Obligations.FetchThenExecuteIsOneStep := by
  refine fun s hend hw => ⟨hostExecute_hostFetch hend hw, fun hh hn inp => ?_⟩
  have hstep : hostStep s = setInWait .step s := hostStep_of_step (step_of_needsAnswer hh hw hn)
  have hexec : hostExecute (hostFetch s).1 (hostFetch s).2 = setInWait .execute (advance s) := by
    obtain ⟨hp, -⟩ | ⟨p, hp, -⟩ := pc_cases s.pc
    · simp [needsAnswer_at_end hp] at hn
    · obtain ⟨hi, hq⟩ := (needsAnswer_of_byte hp).1 hn
      rw [hostFetch_of_byte hh hp]
      exact hostExecute_in (s := advance s) hh hi hq
  rw [hstep, hexec]
  exact ⟨rfl, rfl, rfl⟩

/-! ### The wait and what ends it -/

/-- While an IN waits, of all the calls only reset and the answer act (R246). -/
theorem hostCall_of_waiting (hw : s.waiting = true) {h : HostCall} (hreset : h ≠ .reset)
    (hanswer : ∀ inp, h ≠ .answer inp) : hostCall h s = s := by
  cases h with
  | reset => exact absurd rfl hreset
  | answer inp => exact absurd rfl (hanswer inp)
  | read => rfl
  | _ => exact if_pos hw

theorem hostRun_of_waiting (hh : s.halted = false) (hw : s.waiting = true) : hostRun s = .waiting 0 s := by
  simp [hostRun, Config.runCap, runLoop, hh, hw]

/-- What the answer writes: A, PC, Z and N, and the end of the wait. -/
theorem completeIn_frame (inp : Option Byte) (s : State) : completeIn inp s =
    { s with a := (completeIn inp s).a, pc := (completeIn inp s).pc, z := (completeIn inp s).z,
             n := (completeIn inp s).n, inWait := .none } := by
  obtain ⟨-, h⟩ | ⟨-, h⟩ := completeIn_cases inp s <;> rw [h] <;> rfl

theorem completeIn_a (inp : Option Byte) (s : State) : (completeIn inp s).a = inp.getD 0x00 := by
  obtain ⟨-, h⟩ | ⟨-, h⟩ := completeIn_cases inp s <;> rw [h] <;> exact answerValue_eq inp

theorem completeIn_pc_execute (inp : Option Byte) (h : s.inWait = .execute) : (completeIn inp s).pc = s.pc := by
  simp [completeIn, h]

theorem completeIn_pc_fetch (inp : Option Byte) (h : s.inWait ≠ .execute) :
    (completeIn inp s).pc = pcNext s.pc := by
  obtain ⟨h', -⟩ | ⟨-, h'⟩ := completeIn_cases inp s
  · exact absurd h' h
  · rw [h']; rfl

theorem answerReturns_of_run {count : Nat} (inp : Option Byte) (h : s.inWait = .run count) :
    answerReturns inp s = some (resumeLoop Config.runCap inp count s) := by
  simp [answerReturns, h]

theorem hostAnswer_of_run {count : Nat} (inp : Option Byte) (h : s.inWait = .run count) :
    hostAnswer inp s = (resumeLoop Config.runCap inp count s).state := by
  simp [hostAnswer, h]

/-- Settles O50: the calls one by one, and what the answer writes field by field. -/
theorem onlyAnswerOrResetEndsTheWait : Obligations.OnlyAnswerOrResetEndsTheWait := by
  refine ⟨fun s hw => ⟨step_of_stopped (.inr hw), fun hh => hostRun_of_waiting hh hw,
    fun h => hostCall_of_waiting hw, rfl, fun inp => ⟨completeIn inp s, rfl, ?_⟩⟩,
    fun s hq => ⟨_, exec_in_without_answer hq, rfl, rfl⟩⟩
  refine ⟨(waiting_eq_false _).2 (completeIn_inWait inp s), completeIn_a inp s, fun hne hp => ?_,
    completeIn_pc_execute inp, (flagsOfA_iff_flagsAgree _).2 (completeIn_flagsAgree inp s),
    completeIn_frame inp s, hostAnswer_of_step_or_execute inp, fun count hrun => ?_⟩
  · rw [completeIn_pc_fetch inp hne, pcNext_val hp]
  · exact ⟨_, answerReturns_of_run inp hrun, hostAnswer_of_run inp hrun, rfl⟩

end Sys2Proof.Machine
end

section
/-! PROOFS. `run()` and its answer: an answer in the queue passes unchanged through every step that does not need
it, so a `run()` answered at its IN goes on as one that was answered before (spec/40_execution_cycle.md R97, R102,
R103; D18, log 17). -/

namespace Sys2Proof.Machine

variable {s : State} {inp : Option Byte}

/-! ### A queued answer and the steps before its IN -/

theorem effect_queueAnswer {i : Instr} (hin : i = .inp → s.hostInput ≠ []) :
    effect i (queueAnswer inp s) = queueAnswer inp (effect i s) := by
  cases i with
  | inp =>
    obtain ⟨first, rest, hq⟩ := List.exists_cons_of_ne_nil (hin rfl)
    simp only [effect, queueAnswer, hq]
    rfl
  | _ => rfl

theorem stopReason_queueAnswer (i : Instr) : stopReason i (queueAnswer inp s) = stopReason i s := by
  cases i <;> rfl

theorem raiseHalt_queueAnswer (r : HaltReason) :
    raiseHalt r (queueAnswer inp s) = queueAnswer inp (raiseHalt r s) := by
  cases hh : s.halted with
  | true => rw [raiseHalt_halted r hh, raiseHalt_halted r (s := queueAnswer inp s) hh]
  | false => rw [raiseHalt_running r hh, raiseHalt_running r (s := queueAnswer inp s) hh]; rfl

/-- An execute phase that is not left waiting takes no notice of an answer at the end of the queue. -/
theorem exec_queueAnswer {i : Instr} {t : State} (hin : i = .inp → s.hostInput ≠ []) (h : exec i s = .next t) :
    exec i (queueAnswer inp s) = .next (queueAnswer inp t) := by
  have hqueue : ¬ (i = .inp ∧ (queueAnswer inp s).hostInput = []) := fun h => by simp [queueAnswer] at h
  rw [exec_eq_executed, executed, stopReason_queueAnswer, if_neg hqueue, effect_queueAnswer hin]
  obtain ⟨r, hr, rfl⟩ | ⟨hi, hq, -⟩ | ⟨hr, -, rfl⟩ := exec_next_cases h
  · rw [hr]
    exact congrArg (fun u => Host.Outcome.next (updateZN u)) (raiseHalt_queueAnswer r)
  · exact absurd hq (hin hi)
  · rw [hr]; rfl

theorem hostStep_queueAnswer (hn : s.needsAnswer = false) :
    hostStep (queueAnswer inp s) = queueAnswer inp (hostStep s) := by
  apply hostStep_of_step
  obtain ⟨hstop, h⟩ | ⟨-, -, hyes, -⟩ | ⟨hh, hw, hp, h⟩ | ⟨p, hh, hw, -, hp, h⟩ := step_cases s
  · rw [hostStep_of_step h]
    exact step_of_stopped (s := queueAnswer inp s) hstop
  · simp [hn] at hyes
  · rw [hostStep_of_step h]
    exact step_at_end (s := queueAnswer inp s) hh hw hp
  · have hin : decodeFirst (s.mem.read p) = .inp → s.hostInput ≠ [] := fun hi hq => by
      simp [(needsAnswer_of_byte hp).2 ⟨hi, hq⟩] at hn
    rw [step_of_byte (s := queueAnswer inp s) hh hw (queueAnswer_needsAnswer inp s) hp]
    exact exec_queueAnswer (s := advance s) hin (h.symm.trans (step_eq_hostStep s))

/-! ### The steps a `run()` completes -/

/-- The next step is performed and completes: what `run()` tests before it counts a step (R102). -/
def State.Proceeds (s : State) : Prop := s.halted = false ∧ s.waiting = false ∧ s.needsAnswer = false

/-- The next `k` steps all complete. -/
def State.ProceedsFor (s : State) (k : Nat) : Prop := ∀ j < k, (stepTimes j s).Proceeds

theorem proceedsFor_succ {k : Nat} : s.ProceedsFor (k + 1) ↔ s.Proceeds ∧ (hostStep s).ProceedsFor k :=
  Nat.forall_lt_succ_left

theorem queueAnswer_proceeds (hh : s.halted = false) (hw : s.waiting = false) : (queueAnswer inp s).Proceeds :=
  ⟨hh, hw, queueAnswer_needsAnswer inp s⟩

theorem runLoop_of_proceeds (cap count : Nat) (h : s.Proceeds) :
    runLoop (cap + 1) count s = runLoop cap (count + 1) (hostStep s) := by
  obtain ⟨hh, hw, hn⟩ := h
  simp [runLoop, hh, hw, hn]

theorem runLoop_of_proceedsFor {k : Nat} (cap count : Nat) (h : s.ProceedsFor k) :
    runLoop (cap + k) count s = runLoop cap (count + k) (stepTimes k s) := by
  induction k generalizing count s with
  | zero => rfl
  | succ k ih =>
    obtain ⟨hfirst, hrest⟩ := proceedsFor_succ.1 h
    rw [← Nat.add_assoc, runLoop_of_proceeds _ _ hfirst, ih _ hrest, Nat.add_right_comm count 1 k]
    rfl

theorem stepTimes_queueAnswer {k : Nat} (h : s.ProceedsFor k) :
    stepTimes k (queueAnswer inp s) = queueAnswer inp (stepTimes k s) := by
  induction k generalizing s with
  | zero => rfl
  | succ k ih =>
    obtain ⟨⟨-, -, hn⟩, hrest⟩ := proceedsFor_succ.1 h
    rw [stepTimes, hostStep_queueAnswer hn, ih hrest]
    rfl

theorem queueAnswer_proceedsFor {k : Nat} (h : s.ProceedsFor k) : (queueAnswer inp s).ProceedsFor k := by
  intro j hj
  obtain ⟨hh, hw, -⟩ := h j hj
  rw [stepTimes_queueAnswer fun i hi => h i (hi.trans hj)]
  exact queueAnswer_proceeds hh hw

/-- How the loop of `run()` comes out: after some steps that complete it returns, halted or at its cap, or it is
blocked at an IN without an answer (R97, R102). -/
theorem runLoop_outcome (cap count : Nat) (hw : s.waiting = false) : ∃ k ≤ cap, s.ProceedsFor k ∧
    ((runLoop cap count s = .returned (count + k) (stepTimes k s) ∧
        ((stepTimes k s).halted = true ∨ k = cap)) ∨
      (runLoop cap count s = .waiting (count + k) (setInWait (.run (count + k)) (stepTimes k s)) ∧ k < cap ∧
        (stepTimes k s).halted = false ∧ (stepTimes k s).waiting = false ∧
        (stepTimes k s).needsAnswer = true)) := by
  induction cap generalizing count s with
  | zero => exact ⟨0, le_rfl, nofun, .inl ⟨rfl, .inr rfl⟩⟩
  | succ cap ih =>
    obtain ⟨hh, h⟩ | ⟨-, hwait, -⟩ | ⟨hh, -, hn, h⟩ | ⟨hh, -, hn, h⟩ := runLoop_succ_cases cap count s
    · exact ⟨0, Nat.zero_le _, nofun, .inl ⟨h, .inl hh⟩⟩
    · simp [hw] at hwait
    · exact ⟨0, Nat.zero_le _, nofun, .inr ⟨h, Nat.succ_pos cap, hh, hw, hn⟩⟩
    · have hw' : (hostStep s).waiting = false :=
        (waiting_eq_false _).2 ((hostStep_inWait hn).trans ((waiting_eq_false s).1 hw))
      obtain ⟨k, hk, hfor, hout⟩ := ih (count + 1) hw'
      rw [← h, Nat.add_right_comm count 1 k] at hout
      refine ⟨k + 1, Nat.succ_le_succ hk, proceedsFor_succ.2 ⟨⟨hh, hw, hn⟩, hfor⟩, ?_⟩
      obtain ⟨hret, hend⟩ | ⟨hret, hlt, hstop⟩ := hout
      · exact .inl ⟨hret, hend.imp_right (congrArg (· + 1))⟩
      · exact .inr ⟨hret, Nat.succ_lt_succ hlt, hstop⟩

/-! ### The answer to a blocked `run()` -/

/-- A `run()` blocked after `k` steps goes on by its answer to what it comes to with the answer queued before. -/
theorem resumeLoop_setInWait {cap k : Nat} (hfor : s.ProceedsFor k) (hlt : k < cap)
    (hh : (stepTimes k s).halted = false) (hw : (stepTimes k s).waiting = false)
    (hn : (stepTimes k s).needsAnswer = true) :
    resumeLoop cap inp k (setInWait (.run k) (stepTimes k s)) = runLoop cap 0 (queueAnswer inp s) := by
  have hin : completeIn inp (setInWait (.run k) (stepTimes k s)) = hostStep (queueAnswer inp (stepTimes k s)) := by
    rw [completeIn_setInWait (w := .run k) inp ((waiting_eq_false _).1 hw) nofun,
      hostStep_of_step (step_queueAnswer_of_needsAnswer inp hh hw hn)]
  have hcap : cap = cap - (k + 1) + 1 + k := by omega
  calc resumeLoop cap inp k (setInWait (.run k) (stepTimes k s))
    _ = runLoop (cap - (k + 1)) (k + 1) (hostStep (queueAnswer inp (stepTimes k s))) := by rw [resumeLoop, hin]
    _ = runLoop (cap - (k + 1) + 1) k (stepTimes k (queueAnswer inp s)) := by
        rw [runLoop_of_proceeds _ k (stepTimes_queueAnswer hfor ▸ queueAnswer_proceeds hh hw),
          stepTimes_queueAnswer hfor]
    _ = runLoop (cap - (k + 1) + 1 + k) 0 (queueAnswer inp s) := by
        rw [runLoop_of_proceedsFor _ 0 (queueAnswer_proceedsFor hfor), Nat.zero_add]
    _ = runLoop cap 0 (queueAnswer inp s) := by rw [← hcap]

/-- The loop of `run()` under any cap: what it counts, why it stops, and what its answer makes of it (R102, R103). -/
theorem runLoop_counts_its_steps (cap : Nat) (hw : s.waiting = false) :
    (runLoop cap 0 s).count ≤ cap ∧ s.ProceedsFor (runLoop cap 0 s).count ∧
    (∀ (k : Nat) (t : State), runLoop cap 0 s = .returned k t →
      t = stepTimes k s ∧ (t.halted = true ∨ k = cap)) ∧
    ∀ (k : Nat) (w : State), runLoop cap 0 s = .waiting k w →
      w = setInWait (.run k) (stepTimes k s) ∧ (stepTimes k s).needsAnswer = true ∧
        w.halted = false ∧ k < cap ∧
        ∀ inp : Option Byte, resumeLoop cap inp k w = runLoop cap 0 (hostAnswer inp s) := by
  obtain ⟨k, hk, hfor, hout⟩ := runLoop_outcome cap 0 hw
  rw [Nat.zero_add] at hout
  obtain ⟨hret, hend⟩ | ⟨hret, hlt, hh, hw', hn⟩ := hout <;> rw [hret]
  · refine ⟨hk, hfor, ?_, nofun⟩
    rintro k t ⟨⟩
    exact ⟨rfl, hend⟩
  · refine ⟨hk, hfor, nofun, ?_⟩
    rintro k w ⟨⟩
    refine ⟨rfl, hn, hh, hlt, fun inp => ?_⟩
    rw [hostAnswer_of_not_waiting inp hw]
    exact resumeLoop_setInWait hfor hlt hh hw' hn

/-- Settles O52: `hostRun` is that loop under `RUN_CAP`, and its wait holds the count it goes on with. -/
theorem runCountsItsSteps : Obligations.RunCountsItsSteps := by
  refine ⟨fun cap s hw => runLoop_counts_its_steps cap hw, fun s w k hw hrun inp => ?_⟩
  obtain ⟨-, -, -, hblocked⟩ := runLoop_counts_its_steps Config.runCap hw
  obtain ⟨rfl, -, -, -, hresume⟩ := hblocked k w hrun
  exact ⟨congrArg some (hresume inp), congrArg RunResult.state (hresume inp)⟩

end Sys2Proof.Machine
end

section
/-! PROOFS. LOAD and STORE: an execute phase that nothing stops comes to its `effect`, that of LOAD with the byte
at PC and that of STORE with its one cell (spec/41_load_store.md R110, R111; D1, D2). -/

namespace Sys2Proof.Machine

variable {i : Instr} {s : State} {p : Byte}

/-- An execute phase that neither halts nor waits has its effect, and `UpdateZN()` ends it (R94, R99). -/
theorem exec_effect (hstop : stopReason i s = none) (hin : i = .inp → s.hostInput ≠ []) :
    exec i s = .next (updateZN (effect i s)) := by
  have hwait : ¬(i = .inp ∧ s.hostInput = []) := fun ⟨hi, hq⟩ => hin hi hq
  rw [exec_eq_executed, executed, hstop]
  exact congrArg Host.Outcome.next (if_neg hwait)

/-- STORE stops for no reason (R111). -/
theorem exec_store (d : Nibble) (s : State) :
    exec (.store d) s = .next (updateZN (setMem (s.mem.write (directAddr d) s.a) s)) :=
  exec_effect rfl nofun

/-- Below END, LOAD finds its immediate byte at PC (R110). -/
theorem exec_load_of_byte (hp : s.pc = pcOfByte p) :
    exec .load s = .next (updateZN (advance (setA (s.mem.read p) s))) := by
  have hstop : stopReason .load s = none := if_neg (hp ▸ pcOfByte_ne_end p)
  rw [exec_effect hstop nofun, effect, pcByte_of_pc hp]

theorem encodedAs_store (d : Nibble) : encodedAs (.store d) (0x1#4 ++ d) 1 :=
  ⟨by simp [decodeFirst], rfl⟩

theorem eq_directAddr_iff (addr : Byte) (d : Nibble) : addr = directAddr d ↔ addr.toNat = d.toNat := by
  rw [BitVec.toNat_eq, directAddr_toNat]

/-- Settles O11: STORE writes the cell at its nibble, which is below 16; from 16 on CALL alone writes, by the
memory frame of every instruction. -/
theorem storeWritesItsDirectCell : Obligations.StoreWritesItsDirectCell := by
  refine ⟨fun d s => ⟨encodedAs_store d, _, exec_store d s, fun addr => ?_, updateZN_flagsOfA _, rfl⟩,
    fun i s t addr h hcall hhigh => ?_⟩
  · simp only [updateZN_mem, setMem_mem, read_write, eq_directAddr_iff]
  · refine onlyStoreAndCallWriteMemory i s t addr h (fun d _ => ?_) fun n hi => absurd hi (hcall n)
    have hlow : d.toNat < 16 := d.isLt
    omega

/-- Settles O10: at END the second byte is missing, and below it LOAD reads and skips that byte. -/
theorem loadTakesTheNextByte : Obligations.LoadTakesTheNextByte := by
  refine fun s => ⟨fun hend hh => ?_, fun p hval => ?_⟩
  · exact exec_haltedFrom hh (stopReason_eq_memoryOutOfRange.2 ⟨(pc_eq_end_iff _).2 hend, rfl⟩)
  · have hp : s.pc = pcOfByte p := Fin.ext hval
    have hpast : (pcNext s.pc).val = p.toNat + 1 := hp ▸ pcNext_pcOfByte_val p
    exact ⟨_, exec_load_of_byte hp, rfl, hpast, updateZN_flagsOfA _, rfl⟩

end Sys2Proof.Machine
end

section
/-! PROOFS. The ALU: no instruction of it stops or waits, so each comes to its `effect`, which writes A and, for the
two shifts alone, C (spec/42_alu.md R120 to R128). -/

namespace Sys2Proof.Machine

/-- The operand is the cell whose address the nibble gives (R120). -/
theorem readDirect_eq_read (d : Nibble) (s : State) :
    readDirect d s = s.mem.read (BitVec.ofNat 8 d.toNat) :=
  congrArg s.mem.read (BitVec.ofNat_toNat 8 d).symm

/-- The bytes 0x2x to 0x9x are those of the ALU, one byte long each (R77). -/
theorem encodedAs_alu (x : Nibble) :
    encodedAs (.add x) (0x2#4 ++ x) 1 ∧ encodedAs (.sub x) (0x3#4 ++ x) 1 ∧
    encodedAs (.and x) (0x4#4 ++ x) 1 ∧ encodedAs (.or x) (0x5#4 ++ x) 1 ∧
    encodedAs (.xor x) (0x6#4 ++ x) 1 ∧ encodedAs .not (0x7#4 ++ x) 1 ∧
    encodedAs .shl (0x8#4 ++ x) 1 ∧ encodedAs .shr (0x9#4 ++ x) 1 := by
  obtain ⟨hrows, -⟩ := firstByteDecodesByOpcodeMap
  obtain ⟨-, -, hadd, hsub, hand, hor, hxor, hnot, hshl, hshr, -⟩ := hrows x
  exact ⟨⟨hadd, rfl⟩, ⟨hsub, rfl⟩, ⟨hand, rfl⟩, ⟨hor, rfl⟩, ⟨hxor, rfl⟩, ⟨hnot, rfl⟩, ⟨hshl, rfl⟩, ⟨hshr, rfl⟩⟩

/-! ### Arithmetic -/

theorem toNat_sub_emod (a m : Byte) : ((a - m).toNat : Int) = ((a.toNat : Int) - (m.toNat : Int)) % 256 := by
  have hm : m.toNat < 256 := m.isLt
  rw [BitVec.toNat_sub]
  omega

/-- Settles O12: the sum and the difference of bytes are those of numbers modulo 256. -/
theorem addAndSubWrapModulo256 : Obligations.AddAndSubWrapModulo256 := by
  intro d s m hm
  obtain rfl : m = readDirect d s := hm.trans (readDirect_eq_read d s).symm
  obtain ⟨hadd, hsub, -⟩ := encodedAs_alu d
  exact ⟨hadd, hsub,
    ⟨_, exec_effect rfl nofun, BitVec.toNat_add _ _, updateZN_flagsOfA _, rfl⟩,
    ⟨_, exec_effect rfl nofun, toNat_sub_emod _ _, updateZN_flagsOfA _, rfl⟩⟩

/-! ### Logic -/

/-- Settles O13: each operation on bytes acts on their bits, and the complement of `a` is `255 - a`. -/
theorem logicInstructionsActBitwise : Obligations.LogicInstructionsActBitwise := by
  intro d x s m hm
  obtain rfl : m = readDirect d s := hm.trans (readDirect_eq_read d s).symm
  obtain ⟨-, -, hand, hor, hxor, -⟩ := encodedAs_alu d
  obtain ⟨-, -, -, -, -, hnot, -⟩ := encodedAs_alu x
  exact ⟨hand, hor, hxor, hnot,
    ⟨_, exec_effect rfl nofun, fun _ _ => BitVec.getLsbD_and, updateZN_flagsOfA _, rfl⟩,
    ⟨_, exec_effect rfl nofun, fun _ _ => BitVec.getLsbD_or, updateZN_flagsOfA _, rfl⟩,
    ⟨_, exec_effect rfl nofun, fun _ _ => BitVec.getLsbD_xor, updateZN_flagsOfA _, rfl⟩,
    ⟨_, exec_effect rfl nofun, BitVec.toNat_not, updateZN_flagsOfA _, rfl⟩⟩

/-! ### Shifts -/

/-- The bit SHL moves out is the one N shows (R28, R127). -/
theorem shlCarry_iff (s : State) : shlCarry s.a = true ↔ 128 ≤ s.a.toNat := (updateZN_flagsOfA s).2

theorem shrCarry_iff (a : Byte) : shrCarry a = true ↔ a.toNat % 2 = 1 := by
  rw [shrCarry, BitVec.getLsbD, Nat.testBit_zero, decide_eq_true_iff]

theorem toNat_shiftLeft_one (a : Byte) : (a <<< 1).toNat = a.toNat * 2 % 256 := by
  rw [BitVec.toNat_shiftLeft, Nat.shiftLeft_eq]

theorem toNat_ushiftRight_one (a : Byte) : (a >>> 1).toNat = a.toNat / 2 := by
  rw [BitVec.toNat_ushiftRight, Nat.shiftRight_eq_div_pow]

theorem shiftLeft_one_ushiftRight_one (a : Byte) : a <<< 1 >>> 1 = a &&& 0x7F := by
  have hmask : (a &&& 0x7F).toNat = a.toNat % 128 := Nat.and_two_pow_sub_one_eq_mod a.toNat 7
  apply BitVec.eq_of_toNat_eq
  rw [toNat_ushiftRight_one, toNat_shiftLeft_one, hmask]
  omega

/-- Settles O14: the carries are the end bits of A before the shift, and SHR after SHL clears bit 7. -/
theorem shiftsMoveOneBitIntoC : Obligations.ShiftsMoveOneBitIntoC := by
  intro x s
  obtain ⟨-, -, -, -, -, -, hshl, hshr⟩ := encodedAs_alu x
  exact ⟨hshl, hshr, _, _, _, exec_effect rfl nofun, exec_effect rfl nofun, exec_effect rfl nofun,
    toNat_shiftLeft_one s.a, shlCarry_iff s, updateZN_flagsOfA _, rfl,
    toNat_ushiftRight_one s.a, shrCarry_iff s.a, updateZN_flagsOfA _, rfl,
    shiftLeft_one_ushiftRight_one s.a⟩

end Sys2Proof.Machine
end

section
/-! PROOFS. Control transfer: at END the second byte is missing; below it the jumps, CALL and RET come to their
`effect`, whose targets are computed here (spec/43_control.md R140 to R145; D2, D6, D7, D8). -/

namespace Sys2Proof.Machine

variable {i : Instr} {s t : State} {p : Byte} {r : HaltReason}

/-! ### The targets -/

theorem relTarget_toNat (p off : Byte) :
    ((relTarget p off).toNat : Int) = ((p.toNat : Int) + off.toInt) % 256 := by
  rw [relTarget, BitVec.toNat_ofInt]
  exact Int.toNat_of_nonneg (Int.emod_nonneg _ (by decide))

/-- The nibble stands above the eight bits the core keeps (D8). -/
theorem callTarget_eq (h : Nibble) (t : Byte) : callTarget h t = t := BitVec.setWidth_append_eq_right

theorem returnAddr_toNat (p : Byte) : (returnAddr p).toNat = (p.toNat + 1) % 256 := BitVec.toNat_add p 1#8

theorem branchPc_true_val (hp : s.pc = pcOfByte p) :
    ((branchPc true s).val : Int) = ((p.toNat : Int) + (s.mem.read p).toInt) % 256 := by
  rw [branchPc, if_pos rfl, pcByte_of_pc hp, pcOfByte_val, relTarget_toNat]

theorem branchPc_false_val (hp : s.pc = pcOfByte p) : (branchPc false s).val = p.toNat + 1 := by
  rw [branchPc, if_neg Bool.false_ne_true, hp, pcNext_pcOfByte_val]

/-! ### The jumps -/

/-- A two-byte instruction has no second byte at END (D2). -/
theorem exec_at_end (hlen : i.length = 2) (hend : s.pc.val = 256) (hh : s.halted = false) :
    ∃ t, exec i s = .next t ∧ s.haltedFrom t .memoryOutOfRange :=
  exec_haltedFrom hh (stopReason_eq_memoryOutOfRange.2 ⟨(pc_eq_end_iff s.pc).2 hend, hlen⟩)

/-- Below END a relative jump writes PC alone, taken or not (R140 to R142). -/
theorem branch_of_byte (taken : Bool) (hp : s.pc = pcOfByte p) :
    branch taken s = .next (updateZN (setPc (branchPc taken s) s)) := by
  rw [branch_eq, if_neg (hp ▸ pcOfByte_ne_end p)]

/-- Settles O15: JMP is the relative jump that is always taken. -/
theorem jmpIsRelativeToItsOffsetByte : Obligations.JmpIsRelativeToItsOffsetByte := by
  refine fun s => ⟨exec_at_end rfl, fun p hval => ?_⟩
  have hp : s.pc = pcOfByte p := Fin.ext hval
  exact ⟨_, branch_of_byte true hp, branchPc_true_val hp, updateZN_flagsOfA _, rfl⟩

/-- Settles O16: JZ is the relative jump taken when Z is set, and JNZ the one taken when it is not. -/
theorem jzAndJnzBranchOnZ : Obligations.JzAndJnzBranchOnZ := by
  refine fun s => ⟨fun hend hh => ⟨exec_at_end rfl hend hh, exec_at_end rfl hend hh⟩, fun p hval => ?_⟩
  have hp : s.pc = pcOfByte p := Fin.ext hval
  refine ⟨_, _, branch_of_byte s.z hp, branch_of_byte (!s.z) hp, fun hz => ?_, fun hz => ?_,
    updateZN_flagsOfA _, rfl, updateZN_flagsOfA _, rfl⟩
  · rw [hz]
    exact ⟨branchPc_true_val hp, branchPc_false_val hp⟩
  · rw [hz]
    exact ⟨branchPc_false_val hp, branchPc_true_val hp⟩

/-! ### CALL and RET -/

/-- The target is the byte at the operand's address as it stands after the push (R63, R143; D8). -/
theorem afterCall_pc (h : Nibble) (p : Byte) (s : State) :
    (afterCall h p s).pc = pcOfByte ((afterCall h p s).mem.read p) :=
  congrArg pcOfByte (callTarget_eq h _)

/-- The cell at the new SP holds the return address (R50, R143). -/
theorem afterCall_read_sp (h : Nibble) (p : Byte) (s : State) :
    (afterCall h p s).mem.read (afterCall h p s).sp = returnAddr p :=
  read_write_self s.mem (s.sp - 1#8) (returnAddr p)

theorem exec_call_of_byte (h : Nibble) (hp : s.pc = pcOfByte p) (hsp : 0 < s.sp.toNat) :
    exec (.call h) s = .next (updateZN (afterCall h p s)) := by
  have hstop : stopReason (.call h) s = none := by
    have hne : s.sp ≠ 0#8 := fun h0 => by simp [h0] at hsp
    simp [stopReason, hp, pcOfByte_ne_end, hne]
  rw [exec_effect hstop nofun, effect, pcByte_of_pc hp]

/-- Settles O17: END is tested first, then the stack bound; past both, CALL writes the cell at the new SP and
reads its target from the memory so written. -/
theorem callPushesAndThenReadsItsTarget : Obligations.CallPushesAndThenReadsItsTarget := by
  refine fun h s => ⟨exec_at_end rfl, fun p hval => ?_⟩
  have hp : s.pc = pcOfByte p := Fin.ext hval
  refine ⟨fun hsp hh => ?_, fun hsp => ?_⟩
  · have hne : s.pc ≠ pcEnd := hp ▸ pcOfByte_ne_end p
    exact exec_haltedFrom hh (stopReason_eq_stackOverflow.2 ⟨⟨h, rfl⟩, hne, BitVec.eq_of_toNat_eq hsp⟩)
  · have hdown : (s.sp - 1#8).toNat = s.sp.toNat - 1 := by bv_omega
    have hpushed : ((afterCall h p s).mem.read (afterCall h p s).sp).toNat = (p.toNat + 1) % 256 := by
      rw [afterCall_read_sp, returnAddr_toNat]
    exact ⟨_, exec_call_of_byte h hp hsp, hdown, hpushed, fun _ => read_write_other s.mem (returnAddr p),
      congrArg Fin.val (afterCall_pc h p s), updateZN_flagsOfA _, rfl⟩

theorem exec_ret_below_bound (hsp : s.sp.toNat < 255) :
    exec .ret s = .next (updateZN (jumpTo (s.mem.read s.sp) (setSp (s.sp + 1#8) s))) := by
  have hne : s.sp ≠ 255#8 := fun h => by simp [h] at hsp
  exact exec_effect (if_neg hne) nofun

/-- Settles O18: RET is `Pop` with the byte popped as PC, or the halt at its bound. -/
theorem retPopsThePc : Obligations.RetPopsThePc := by
  refine fun s => ⟨fun hsp hh => ?_, fun hsp => ?_⟩
  · exact exec_haltedFrom hh (stopReason_eq_stackUnderflow.2 ⟨rfl, BitVec.eq_of_toNat_eq hsp⟩)
  · have hup : (s.sp + 1#8).toNat = s.sp.toNat + 1 := pop_sp (pop_below_bound hsp)
    exact ⟨_, exec_ret_below_bound hsp, rfl, hup, updateZN_flagsOfA _, rfl⟩

/-- Settles O32: the byte RET takes is the one CALL pushed, since CALL leaves SP at that byte. -/
theorem callThenRetContinuesAfterTheCall : Obligations.CallThenRetContinuesAfterTheCall := by
  intro h s p hp hsp
  obtain ⟨-, hcall⟩ := callPushesAndThenReadsItsTarget h s
  obtain ⟨-, hroom⟩ := hcall p hp
  obtain ⟨t, ht, hdown, hpushed, -⟩ := hroom hsp
  obtain ⟨-, hret⟩ := retPopsThePc t
  have hbelow : t.sp.toNat < 255 := by
    have hlt := s.sp.isLt
    omega
  obtain ⟨u, hu, hpc, hup, -⟩ := hret hbelow
  have hback : u.sp.toNat = s.sp.toNat := by rw [hup, hdown, Nat.sub_add_cancel hsp]
  exact ⟨t, u, ht, hu, hpc.trans hpushed, BitVec.eq_of_toNat_eq hback⟩

/-! ### HALT -/

theorem State.haltedFrom.halted (h : s.haltedFrom t r) : t.halted = true := by
  obtain ⟨-, ht⟩ := h
  exact congrArg State.halted ht

/-- Settles O19: HALT stops for its reason in every state, and a halted machine has no step. -/
theorem haltStopsTheMachine : Obligations.HaltStopsTheMachine := by
  intro s hh
  obtain ⟨t, ht, hfrom⟩ := exec_haltedFrom hh (stopReason_eq_haltInstruction.2 rfl)
  exact ⟨t, ht, hfrom, step_of_stopped (.inl hfrom.halted)⟩

end Sys2Proof.Machine
end

section
/-! PROOFS. I/O and display: IN with an answer, OUT and the display instructions stop for no reason, so each comes to
its `effect`, whose values are computed here (spec/44_io_display.md R160 to R168; D9 to D12, D14, D31). -/

namespace Sys2Proof.Machine

variable {s : State}

/-! ### The host's channels -/

theorem effect_inp_of_answer {inp : Option Byte} {rest : List (Option Byte)} (hq : s.hostInput = inp :: rest) :
    effect .inp s = takeAnswer inp (setHostInput rest s) := by
  rw [effect, hq, List.headD_cons, List.tail_cons]

/-- Settles O21: with an answer there, IN does not wait, and its effect takes the oldest one. -/
theorem inTakesTheOldestAnswer : Obligations.InTakesTheOldestAnswer := by
  intro s inp rest hq
  have hexec : exec .inp s = .next (updateZN (takeAnswer inp (setHostInput rest s))) := by
    rw [exec_effect rfl fun _ => by simp [hq], effect_inp_of_answer hq]
  exact ⟨_, hexec, answerValue_eq inp, rfl, updateZN_flagsOfA _, rfl⟩

/-- Settles O22: the effect of OUT appends A to the bytes emitted, and writes no other field. -/
theorem outEmitsA : Obligations.OutEmitsA := fun _ =>
  ⟨_, exec_effect rfl nofun, rfl, updateZN_flagsOfA _, rfl⟩

/-! ### The cursor -/

/-- The cells are counted row by row, so a column that wraps carries into the row (R163). -/
theorem cursorNext_is_next_cell (x : Fin 16) (y : Fin 4) :
    (cursorNextY x y).val * 16 + (cursorNextX x).val = (y.val * 16 + x.val + 1) % 64 := by
  simp only [cursorNextX, cursorNextY]
  split
  case isTrue hwrap => dsimp only; omega
  case isFalse hwrap => omega

theorem effect_disp_text (hm : s.displayMode = .text) :
    effect .disp s = setCursor (cursorNextX s.cursorX) (cursorNextY s.cursorX s.cursorY)
      (setText (TextGrid.put s.text s.cursorY s.cursorX s.a) s) := by
  simp [effect, hm]

/-- In graphics mode DISP neither writes nor moves (D9). -/
theorem effect_disp_graphics (hm : s.displayMode = .graphics) : effect .disp s = s := by
  simp [effect, hm]

/-- Settles O23: in text mode one cell is put and the cursor moves to the next; in graphics mode only
`UpdateZN()` runs. -/
theorem dispWritesAndAdvances : Obligations.DispWritesAndAdvances := by
  intro s
  have hexec : exec .disp s = .next (updateZN (effect .disp s)) := exec_effect rfl nofun
  refine ⟨fun hm => ?_, fun hm => ?_⟩
  · rw [effect_disp_text hm] at hexec
    exact ⟨_, hexec, fun y x => cell_put s.text s.cursorY y s.cursorX x s.a,
      cursorNext_is_next_cell s.cursorX s.cursorY, updateZN_flagsOfA _, rfl⟩
  · rw [effect_disp_graphics hm] at hexec
    exact ⟨_, hexec, updateZN_flagsOfA _, rfl⟩

/-- Settles O24: CURS takes both coordinates from A whatever the mode is. -/
theorem cursSetsTheCursorFromA : Obligations.CursSetsTheCursorFromA :=
  ⟨⟨rfl, rfl⟩, fun _ => ⟨_, exec_effect rfl nofun, rfl, rfl, updateZN_flagsOfA _, rfl⟩⟩

/-! ### The grids -/

theorem effect_clr_text (hm : s.displayMode = .text) : effect .clr s = setCursor 0 0 (setText blankText s) := by
  simp [effect, hm]

theorem effect_clr_graphics (hm : s.displayMode = .graphics) :
    effect .clr s = setCursor 0 0 (setGfx blankGfx s) := by
  simp [effect, hm]

/-- Settles O25: the cursor goes home in either mode, and the mode picks the grid that is blanked (D10, D12). -/
theorem clrClearsTheGridOfTheMode : Obligations.ClrClearsTheGridOfTheMode := by
  refine fun s => ⟨_, exec_effect rfl nofun, rfl, rfl, updateZN_flagsOfA _, fun hm => ?_, fun hm => ?_, rfl⟩
  · rw [effect_clr_text hm]
    exact ⟨cell_blank, rfl⟩
  · rw [effect_clr_graphics hm]
    exact ⟨pixel_blank, rfl⟩

/-- A row that GPIX addresses is one of the first eight, so reducing it modulo 32 changes nothing (R167). -/
theorem pixelYOf_val (a : Byte) : (pixelYOf a).val = a.toNat / 32 := by
  have ha : a.toNat < 256 := a.isLt
  exact Nat.mod_eq_of_lt (by omega)

/-- Settles O27: GPIX lights the pixel A addresses, and reads no mode (D11). -/
theorem gpixSetsOnePixel : Obligations.GpixSetsOnePixel := by
  refine fun s => ⟨_, exec_effect rfl nofun, fun y x => ?_, updateZN_flagsOfA _, rfl⟩
  have haddr : (y = pixelYOf s.a ∧ x = pixelXOf s.a) ↔ y.val = s.a.toNat / 32 ∧ x.val = s.a.toNat % 32 := by
    rw [Fin.ext_iff, Fin.ext_iff, pixelYOf_val, pixelXOf]
  calc GfxGrid.pixel (GfxGrid.light s.gfx (pixelYOf s.a) (pixelXOf s.a)) y x
      = (decide (y = pixelYOf s.a ∧ x = pixelXOf s.a) || GfxGrid.pixel s.gfx y x) := pixel_light ..
    _ = if y.val = s.a.toNat / 32 ∧ x.val = s.a.toNat % 32 then true else GfxGrid.pixel s.gfx y x := by
      rw [decide_eq_decide.2 haddr, Bool.if_true_left]

/-! ### The mode and the scroll offset -/

/-- Settles O26: A is 0 as a byte exactly when it is 0 as a number. -/
theorem gmodeSelectsTheMode : Obligations.GmodeSelectsTheMode := by
  refine ⟨⟨rfl, rfl⟩, fun s => ⟨_, exec_effect rfl nofun, fun ha => ?_, fun ha => ?_, updateZN_flagsOfA _, rfl⟩⟩
  · exact if_pos (mt (congrArg BitVec.toNat) ha)
  · exact if_neg (not_not.2 (BitVec.eq_of_toNat_eq ha))

theorem effect_scroll_text (hm : s.displayMode = .text) :
    effect .scroll s = setScroll (scrollBy s.scrollOffset s.a) s := by
  simp [effect, hm]

theorem effect_scroll_graphics (hm : s.displayMode = .graphics) : effect .scroll s = s := by
  simp [effect, hm]

/-- Settles O28: the mode decides whether SCROLL adds A or leaves the offset (R168). -/
theorem scrollAddsAModuloFour : Obligations.ScrollAddsAModuloFour := by
  refine ⟨⟨rfl, rfl⟩, fun s => ⟨_, exec_effect rfl nofun, fun hm => ?_, fun hm => ?_, updateZN_flagsOfA _, rfl⟩⟩
  · rw [effect_scroll_text hm]
    rfl
  · rw [effect_scroll_graphics hm]
    rfl

end Sys2Proof.Machine
end

section
/-! PROOFS. The bytes of one instruction line by its mnemonic and its operand's value
(spec/45_assembler.md R189 to R198; D24, D26). -/

namespace Sys2Proof.Asm

variable {labels : List (Token × Option Nat)} {addr v : Nat} {name t : Token} {op : AsmOp}

/-! ### A line without an operand, and a line with one -/

/-- An operation without an operand is its first byte (R196). -/
theorem encodeLine_bare (i : Instr) (hop : findMnemonic name = some (.bare i)) :
    encodeLine labels addr [name] = .ok [encodeFirst i] := by
  simp [encodeLine, hop, encodeOp, AsmOp.arity, AsmOp.code, encode]

/-- An operand with a value is encoded when the value is in the mnemonic's range (R193). -/
theorem encodeLine_operand (hop : findMnemonic name = some op) (harity : op.arity = 1)
    (hv : operandValue labels t = .ok (some v)) :
    encodeLine labels addr [name, t] =
      if v ≤ op.maxOperand then .ok (encode (op.code addr v)) else .error .operandOutOfRange := by
  simp [encodeLine, hop, encodeOp, harity, hv]

theorem encodeLine_operand_in_range (hop : findMnemonic name = some op) (harity : op.arity = 1)
    (hv : operandValue labels t = .ok (some v)) (hmax : v ≤ op.maxOperand) :
    encodeLine labels addr [name, t] = .ok (encode (op.code addr v)) := by
  rw [encodeLine_operand hop harity hv, if_pos hmax]

/-! ### The bytes of an instruction with its operand's value -/

/-- A direct address fills the low nibble of the byte (R195). -/
theorem append_ofNat (h : Nibble) (hv : v ≤ 15) : h ++ BitVec.ofNat 4 v = BitVec.ofNat 8 (h.toNat * 16 + v) := by
  have hh := h.isLt
  apply BitVec.eq_of_toNat_eq
  rw [toNat_append_nibbles, BitVec.toNat_ofNat, BitVec.toNat_ofNat]
  omega

theorem encodeLine_direct {f : Nibble → Instr} (h : Nibble) (hop : findMnemonic name = some (.direct f))
    (hf : encodeFirst (f (BitVec.ofNat 4 v)) = h ++ BitVec.ofNat 4 v) (hv : operandValue labels t = .ok (some v))
    (hmax : v ≤ 15) : encodeLine labels addr [name, t] = .ok [BitVec.ofNat 8 (h.toNat * 16 + v)] := by
  rw [encodeLine_operand_in_range hop rfl hv hmax, ← append_ofNat h hmax, ← hf]
  rfl

/-- A CALL target below 256 leaves the nibble 0 (R198). -/
theorem encode_call (hv : v ≤ 255) :
    encode (AsmOp.call.code addr v) = [0xD0, BitVec.ofNat 8 v] := by
  have hhigh : v / 256 = 0 := by omega
  rw [AsmOp.code, hhigh]
  rfl

theorem jumpOffset_toNat (addr v : Nat) :
    ((jumpOffset addr v).toNat : Int) = ((v : Int) - ((addr : Int) + 1)) % 256 := by
  rw [jumpOffset, BitVec.toNat_ofInt]
  exact Int.toNat_of_nonneg (Int.emod_nonneg _ (by decide))

/-- Settles O56: each mnemonic's form is looked up, and the form gives the bytes. -/
theorem assemblerEncodesEachMnemonic : Obligations.AssemblerEncodesEachMnemonic := by
  refine ⟨fun labels addr v t hv => ⟨fun hmax => encodeLine_operand_in_range (op := .load) rfl rfl hv hmax,
    fun hmax => ?_, fun hmax => ?_,
    fun hmax => ⟨jumpOffset addr v, jumpOffset_toNat addr v, ?_, ?_, ?_⟩⟩, fun labels addr => ?_⟩
  · exact ⟨encodeLine_direct 0x1 rfl rfl hv hmax, encodeLine_direct 0x2 rfl rfl hv hmax,
      encodeLine_direct 0x3 rfl rfl hv hmax, encodeLine_direct 0x4 rfl rfl hv hmax,
      encodeLine_direct 0x5 rfl rfl hv hmax, encodeLine_direct 0x6 rfl rfl hv hmax⟩
  · rw [encodeLine_operand_in_range (op := .call) rfl rfl hv hmax, encode_call hmax]
  · exact encodeLine_operand_in_range (op := .jump .jmp) rfl rfl hv hmax
  · exact encodeLine_operand_in_range (op := .jump .jz) rfl rfl hv hmax
  · exact encodeLine_operand_in_range (op := .jump .jnz) rfl rfl hv hmax
  · simp only [List.all_cons, List.all_nil, Bool.and_true, Bool.and_eq_true, decide_eq_true_eq]
    exact ⟨encodeLine_bare .not rfl, encodeLine_bare .shl rfl, encodeLine_bare .shr rfl, encodeLine_bare .ret rfl,
      encodeLine_bare .halt rfl, encodeLine_bare .inp rfl, encodeLine_bare .out rfl, encodeLine_bare .disp rfl,
      encodeLine_bare .curs rfl, encodeLine_bare .clr rfl, encodeLine_bare .gmode rfl, encodeLine_bare .gpix rfl,
      encodeLine_bare .scroll rfl⟩

end Sys2Proof.Asm
end

section
/-! PROOFS. A jump that is assembled and then run: the offset the assembler counts is the one the machine adds
(spec/45_assembler.md R197, spec/43_control.md R140 to R142; D24). -/

namespace Sys2Proof.Asm

open Sys2Proof.Machine

variable {labels : List (Token × Option Nat)} {addr v : Nat} {name t : Token} {i : Instr} {b1 b2 : Byte}

/-- `i` is a relative jump that is taken in `s` (R140 to R142). -/
def TakenJump (i : Instr) (s : State) : Prop :=
  i = .jmp ∨ (i = .jz ∧ s.z = true) ∨ (i = .jnz ∧ s.z = false)

/-- A taken jump adds the signed offset byte at PC to PC (R140 to R142). -/
theorem TakenJump.exec_pc {s : State} {p : Byte} (hi : TakenJump i s) (hp : s.pc = pcOfByte p) :
    ∃ u, exec i s = .next u ∧ (u.pc.val : Int) = ((p.toNat : Int) + (s.mem.read p).toInt) % 256 := by
  have hexec : exec i s = branch true s := by
    obtain rfl | ⟨rfl, hz⟩ | ⟨rfl, hz⟩ := hi
    · rfl
    · simp [exec, execJz, hz]
    · simp [exec, execJnz, hz]
  exact ⟨_, hexec.trans (branch_of_byte true hp), branchPc_true_val hp⟩

/-- What the assembler makes of a jump, where it succeeds. -/
theorem encodeLine_jump_ok (hop : findMnemonic name = some (.jump i))
    (hv : operandValue labels t = .ok (some v)) (h : encodeLine labels addr [name, t] = .ok [b1, b2]) :
    v ≤ 255 ∧ b1 = encodeFirst i ∧ b2 = jumpOffset addr v := by
  rw [encodeLine_operand hop rfl hv] at h
  split at h
  · next hmax =>
    cases h
    exact ⟨hmax, rfl, rfl⟩
  · cases h

/-- The machine's signed offset and the assembler's offset byte are the same number modulo 256 (D24). -/
theorem add_jumpOffset_toInt (addr : Nat) (hv : v ≤ 255) :
    ((addr : Int) + 1 + (jumpOffset addr v).toInt) % 256 = v := by
  have hmod : (jumpOffset addr v).toInt % 256 = ((v : Int) - ((addr : Int) + 1)) % 256 := by
    rw [jumpOffset, BitVec.toInt_ofInt]
    exact Int.bmod_emod
  omega

/-- Settles O57: the step decodes the jump, whose offset byte is one further. -/
theorem assembledJumpLandsOnItsTarget : Obligations.AssembledJumpLandsOnItsTarget := by
  intro name labels t v s addr b1 b2 hname hv hline haddr hh hw hpc hb1 hb2
  have hjump : ∃ i, findMnemonic name = some (.jump i) ∧ decodeFirst (encodeFirst i) = i ∧ TakenJump i s := by
    obtain rfl | ⟨rfl, hz⟩ | ⟨rfl, hz⟩ := hname
    · exact ⟨.jmp, rfl, rfl, .inl rfl⟩
    · exact ⟨.jz, rfl, rfl, .inr (.inl ⟨rfl, hz⟩)⟩
    · exact ⟨.jnz, rfl, rfl, .inr (.inr ⟨rfl, hz⟩)⟩
  obtain ⟨i, hop, hdecode, htaken⟩ := hjump
  obtain ⟨hmax, rfl, rfl⟩ := encodeLine_jump_ok hop hv hline
  have hnext : (addr + 1).toNat = addr.toNat + 1 := by bv_omega
  have hdecoded : decodeFirst (s.mem.read addr) = i := by rw [hb1, hdecode]
  have hin : i = .inp → s.hostInput ≠ [] := by
    obtain rfl | ⟨rfl, -⟩ | ⟨rfl, -⟩ := htaken <;> nofun
  obtain ⟨q, hq, hstep⟩ := stepRunsDecodedInstruction s addr i hh hw hpc hdecoded hin
  have hpast : q = pcOfByte (addr + 1) := Fin.ext (hq.trans hnext.symm)
  obtain ⟨u, hu, hland⟩ := TakenJump.exec_pc (s := { s with pc := q }) htaken hpast
  refine ⟨u, hstep.trans hu, ?_⟩
  have htarget : (u.pc.val : Int) = v := calc
    (u.pc.val : Int) = (((addr + 1).toNat : Int) + (s.mem.read (addr + 1)).toInt) % 256 := hland
    _ = ((addr.toNat : Int) + 1 + (jumpOffset addr.toNat v).toInt) % 256 := by rw [hb2, hnext]; rfl
    _ = v := add_jumpOffset_toInt addr.toNat hmax
  exact_mod_cast htarget

end Sys2Proof.Asm
end

section
/-! PROOFS. The expansion of an invocation without parameters: an item on its own is expanded without regard to the
items around it, and a plain body line becomes itself (spec/45_assembler.md R188; D29; log 21). -/

namespace Sys2Proof.Asm

variable {ms : List MacroDef} {m : MacroDef} {num : Nat} {L : List Token}

/-- A line that is no directive, no label and no invocation (R188). -/
def PlainLine (ms : List MacroDef) (L : List Token) : Prop :=
  ∃ t rest, L = t :: rest ∧ t ≠ macroWord ∧ t ≠ endmacroWord ∧ endsInColon t = false ∧ findMacro ms t = none

theorem PlainLine.expandedLine (h : PlainLine ms L) : expandedLine ms num L = .code num L := by
  obtain ⟨t, rest, rfl, hmacro, hend, hcolon, hfind⟩ := h
  simp [Asm.expandedLine, hmacro, hend, hcolon, hfind]

theorem PlainLine.expandItem (h : PlainLine ms L) : expandItem ms (.line num L) = [.code num L] := by
  obtain ⟨t, rest, rfl, -, -, -, hfind⟩ := h
  simp [Asm.expandItem, hfind]

/-- Without parameters nothing is substituted (R188). -/
theorem substitute_nil (L : List Token) : substitute [] L = L := by
  simp [substitute]

theorem expandItem_invocation (hfind : findMacro ms m.name = some m) (hparams : m.params = []) :
    expandItem ms (.line num [m.name]) = m.body.map (expandedLine ms num) := by
  simp [expandItem, hfind, hparams, substitute_nil]

/-- Lines that each expand to one item expand to those items in order. -/
theorem flatMap_expandItem_line {body : List (List Token)} (h : ∀ L ∈ body, PlainLine ms L) :
    (body.map (Item.line num)).flatMap (expandItem ms) = body.map (expandedLine ms num) := by
  induction body with
  | nil => rfl
  | cons L body ih =>
    obtain ⟨hL, hbody⟩ := List.forall_mem_cons.1 h
    rw [List.map_cons, List.flatMap_cons, hL.expandItem, ih hbody, List.map_cons, hL.expandedLine]
    rfl

/-- Settles O58: the invocation and the lines in its place expand to the same items. -/
theorem macroWithoutParametersInlines : Obligations.MacroWithoutParametersInlines := by
  intro ms m pre post num hfind hparams hplain
  have hexpand : (pre ++ .line num [m.name] :: post).flatMap (expandItem ms) =
      (pre ++ m.body.map (Item.line num) ++ post).flatMap (expandItem ms) := by
    rw [List.flatMap_append, List.flatMap_cons, expandItem_invocation hfind hparams, List.flatMap_append,
      List.flatMap_append, flatMap_expandItem_line hplain, List.append_assoc]
  rw [passTwo, hexpand, passTwo]

end Sys2Proof.Asm
end

section
/-! PROOFS. Labels: in an assembly that succeeds every item has the length of its bytes, so the label table
counts the bytes before each label (spec/45_assembler.md R191, R192; D23; log 22). -/

namespace Sys2Proof.Asm

variable {labels : List (Token × Option Nat)} {addr k : Nat} {op : AsmOp} {x : Expanded} {xs ys : List Expanded}
  {name : Token} {bs : List Byte}

/-! ### What an encoding that succeeds can be -/

/-- The bytes of a mnemonic are those of its code, unless a label of unknown address leaves none. -/
theorem encodeOp_ok_cases {args : List Token} (h : encodeOp labels addr op args = .ok bs) :
    (∃ v, bs = encode (op.code addr v)) ∨ ∃ t, operandValue labels t = .ok none := by
  unfold encodeOp at h
  split at h
  · cases h
  · split at h
    · cases h; exact .inl ⟨0, rfl⟩
    · next t _ _ =>
      split at h
      · cases h
      · next hnone => exact .inr ⟨t, hnone⟩
      · next v _ =>
        split at h
        · cases h; exact .inl ⟨v, rfl⟩
        · cases h

/-- An item that is encoded is a mark or an empty line, or a line that begins with a mnemonic. -/
theorem encodeItem_ok_cases (h : encodeItem labels addr x = .ok bs) :
    (x.length? = some 0 ∧ bs = []) ∨
    ∃ op args, x.length? = some op.length ∧ encodeOp labels addr op args = .ok bs := by
  cases x with
  | label name => cases h; exact .inl ⟨rfl, rfl⟩
  | broken e => cases h
  | code num toks =>
    cases toks with
    | nil => cases h; exact .inl ⟨rfl, rfl⟩
    | cons t args =>
      cases hop : findMnemonic t with
      | none => simp [encodeItem, encodeLine, hop] at h
      | some op =>
        refine .inr ⟨op, args, by simp [Expanded.length?, hop], ?_⟩
        simp only [encodeItem, encodeLine, hop] at h
        split at h
        · cases h
        · next hbytes => cases h; exact hbytes

/-- The items of a list are encoded one after the other (R200). -/
theorem encodeFrom_cons_ok (h : encodeFrom labels addr (x :: xs) = .ok bs) : ∃ bx bxs,
    encodeItem labels addr x = .ok bx ∧ encodeFrom labels (addr + bx.length) xs = .ok bxs ∧ bs = bx ++ bxs := by
  rw [encodeFrom] at h
  split at h
  · cases h
  · next bx hx =>
    split at h
    · cases h
    · next bxs hxs => cases h; exact ⟨bx, bxs, hx, hxs, rfl⟩

theorem encodeFrom_cons_of_ok {bx bxs : List Byte} (hx : encodeItem labels addr x = .ok bx)
    (hxs : encodeFrom labels (addr + bx.length) xs = .ok bxs) :
    encodeFrom labels addr (x :: xs) = .ok (bx ++ bxs) := by
  simp [encodeFrom, hx, hxs]

theorem encodeFrom_append_ok (h : encodeFrom labels addr (xs ++ ys) = .ok bs) : ∃ bx bY,
    bs = bx ++ bY ∧ encodeFrom labels addr xs = .ok bx := by
  induction xs generalizing addr bs with
  | nil => exact ⟨[], bs, rfl, rfl⟩
  | cons x xs ih =>
    obtain ⟨bx, bs', hx, hrest, rfl⟩ := encodeFrom_cons_ok h
    obtain ⟨bxs, bY, rfl, hxs⟩ := ih hrest
    exact ⟨bx ++ bxs, bY, (List.append_assoc ..).symm, encodeFrom_cons_of_ok hx hxs⟩

/-! ### The length of an item is that of its bytes -/

/-- Every item has a length (R191). -/
def AllMeasured (xs : List Expanded) : Prop := ∀ x ∈ xs, ∃ k, x.length? = some k

theorem allMeasured_of_encodeFrom_ok (h : encodeFrom labels addr xs = .ok bs) : AllMeasured xs := by
  induction xs generalizing addr bs with
  | nil => nofun
  | cons x xs ih =>
    obtain ⟨bx, bs', hx, hrest, -⟩ := encodeFrom_cons_ok h
    refine List.forall_mem_cons.2 ⟨?_, ih hrest⟩
    obtain ⟨hlen, -⟩ | ⟨op, -, hlen, -⟩ := encodeItem_ok_cases hx <;> exact ⟨_, hlen⟩

theorem encode_code_length (op : AsmOp) (addr v : Nat) : (encode (op.code addr v)).length = op.length := by
  cases op <;> rfl

/-- No operand has an unknown value, so every line that is encoded has its bytes (R189; log 22). -/
def AllKnown (labels : List (Token × Option Nat)) : Prop := ∀ t, operandValue labels t ≠ .ok none

theorem encodeItem_length (hk : AllKnown labels) (h : encodeItem labels addr x = .ok bs) :
    x.length? = some bs.length := by
  obtain ⟨hlen, rfl⟩ | ⟨op, args, hlen, hop⟩ := encodeItem_ok_cases h
  · exact hlen
  · obtain ⟨v, rfl⟩ | ⟨t, hnone⟩ := encodeOp_ok_cases hop
    · rw [hlen, encode_code_length]
    · exact absurd hnone (hk t)

/-! ### The label table -/

theorem operandValue_of_lookup {v : Option Nat} (h : labels.lookup name = some v) :
    operandValue labels name = .ok v := by
  simp [operandValue, h]

theorem operandValue_eq_ok_none {t : Token} (h : operandValue labels t = .ok none) :
    labels.lookup t = some none := by
  unfold operandValue at h
  split at h
  · next v hlookup => cases h; exact hlookup
  · split at h
    · cases h
    · split at h
      · cases h
      · split at h <;> cases h

/-- A label mark adds its entry, and the item's length counts for the entries after it (R191). -/
theorem labelTable_cons_cases (h : x.length? = some k) :
    (∃ n, x = .label n ∧ labelTable (some addr) (x :: xs) = (n, some addr) :: labelTable (some (addr + k)) xs) ∨
    labelTable (some addr) (x :: xs) = labelTable (some (addr + k)) xs := by
  cases x with
  | label n => cases h; exact .inl ⟨n, rfl, rfl⟩
  | code num toks => exact .inr (by simp [labelTable, h])
  | broken e => cases h

/-- Where every item has a length, every label has an address. -/
theorem labelTable_lookup_ne_none (h : AllMeasured xs) (t : Token) :
    (labelTable (some addr) xs).lookup t ≠ some none := by
  induction xs generalizing addr with
  | nil => nofun
  | cons x xs ih =>
    obtain ⟨⟨k, hk⟩, hxs⟩ := List.forall_mem_cons.1 h
    obtain ⟨n, -, htable⟩ | htable := labelTable_cons_cases (xs := xs) (addr := addr) hk <;> rw [htable]
    · rw [List.lookup_cons]
      split
      · nofun
      · exact ih hxs
    · exact ih hxs

theorem labelTable_allKnown (h : AllMeasured xs) : AllKnown (labelTable (some addr) xs) := fun t hnone =>
  labelTable_lookup_ne_none h t (operandValue_eq_ok_none hnone)

/-- The first mark of a name gives its address: the bytes encoded before it (R191). -/
theorem labelTable_lookup_label (hk : AllKnown labels) (hname : .label name ∉ xs)
    (h : encodeFrom labels addr xs = .ok bs) :
    (labelTable (some addr) (xs ++ .label name :: ys)).lookup name = some (some (addr + bs.length)) := by
  induction xs generalizing addr bs with
  | nil => cases h; exact List.lookup_cons_self
  | cons x xs ih =>
    obtain ⟨bx, bxs, hx, hxs, rfl⟩ := encodeFrom_cons_ok h
    obtain ⟨hne, hname⟩ := not_or.1 (mt List.mem_cons.2 hname)
    have hrest := ih hname hxs
    rw [Nat.add_assoc, ← List.length_append] at hrest
    obtain ⟨n, rfl, htable⟩ | htable :=
      labelTable_cons_cases (xs := xs ++ .label name :: ys) (addr := addr) (encodeItem_length hk hx) <;>
      rw [List.cons_append, htable]
    · have hother : (name == n) = false := beq_false_of_ne fun hn => hne (hn ▸ rfl)
      rw [List.lookup_cons, hother]
      exact hrest
    · exact hrest

/-- Settles O59: the items before the label are encoded first, and their lengths are those of their bytes. -/
theorem labelsAreByteAddresses : Obligations.LabelsAreByteAddresses := by
  intro xs ys name bs hname h
  obtain ⟨bx, bY, hbs, hbx⟩ := encodeFrom_append_ok h
  have hk := labelTable_allKnown (addr := 0) (allMeasured_of_encodeFrom_ok h)
  have hbefore : .label name ∉ xs := fun hx => hname (List.mem_append_left ys hx)
  have hlookup := labelTable_lookup_label (ys := ys) hk hbefore hbx
  rw [Nat.zero_add] at hlookup
  exact ⟨bx, bY, hbs, hbx, operandValue_of_lookup hlookup⟩

end Sys2Proof.Asm
end

section
/-! PROOFS. The listing of an instruction read back: its text splits into the mnemonic and one number, the number
parses to the value printed, and that value encodes to the instruction (spec/45_assembler.md R182, R184, R205; D30). -/

namespace Sys2Proof.Asm

variable {addr v : Nat} {t w cur : List Char} {i : Instr} {o : Option Byte} {op : AsmOp} {off : Byte}

/-! ### Tokens -/

/-- No character of `w` separates tokens (R182). -/
def Unbroken (w : List Char) : Prop := ∀ ch ∈ w, isSeparator ch = false

/-- Characters that separate nothing are added to the token being read. -/
theorem tokensFrom_append (hw : Unbroken w) (rest : List Char) :
    tokensFrom cur (w ++ rest) = tokensFrom (w.reverse ++ cur) rest := by
  induction w generalizing cur with
  | nil => rfl
  | cons ch w ih =>
    obtain ⟨hch, hw⟩ := List.forall_mem_cons.1 hw
    rw [List.cons_append, tokensFrom, hch, List.reverse_cons, List.append_assoc]
    exact ih hw

theorem tokens_word (hw : Unbroken w) (hne : w ≠ []) : tokens w = [w] := by
  have h := tokensFrom_append (cur := []) hw []
  rw [List.append_nil, List.append_nil] at h
  simp [tokens, h, tokensFrom, hne]

theorem tokens_word_space (hw : Unbroken w) (hne : w ≠ []) (rest : List Char) :
    tokens (w ++ ' ' :: rest) = w :: tokens rest := by
  simp [tokens, tokensFrom_append hw, tokensFrom, isSeparator, hne]

theorem mnemonics_unbroken : ∀ row ∈ mnemonics, Unbroken row.1 ∧ row.1 ≠ [] := by
  simp [mnemonics, Unbroken, isSeparator]

/-- A mnemonic is one token (R182, R189). -/
theorem findMnemonic_unbroken (h : findMnemonic w = some op) : Unbroken w ∧ w ≠ [] := by
  obtain ⟨before, after, hrow, -⟩ := List.lookup_eq_some_iff.1 h
  exact mnemonics_unbroken (w, op) (hrow ▸ by simp)

/-! ### Numbers -/

theorem digitChar_not_separator : ∀ d < 16, isSeparator (Nat.digitChar d) = false := by decide

theorem decDigit?_digitChar : ∀ d < 10, decDigit? (Nat.digitChar d) = some d := by decide

theorem hexDigit?_digitChar : ∀ d < 16, hexDigit? (Nat.digitChar d) = some d := by decide

/-- `w` is one token, and a number of value `v` (R182, R184). -/
structure Numeral (w : Token) (v : Nat) : Prop where
  unbroken : Unbroken w
  ne_nil : w ≠ []
  parse : parseNumber w = some v

theorem Numeral.operandValue (h : Numeral t v) : operandValue [] t = .ok (some v) := by
  simp [Asm.operandValue, h.parse]

theorem numeral_hexByte (b : Byte) : Numeral ("0x".toList ++ hexByte b) b.toNat where
  unbroken := by
    have hb : b.toNat < 256 := b.isLt
    have hhigh := digitChar_not_separator (b.toNat / 16) (by omega)
    have hlow := digitChar_not_separator (b.toNat % 16) (by omega)
    have hmark : Unbroken "0x".toList := by simp [Unbroken, isSeparator]
    exact List.forall_mem_append.2 ⟨hmark, by simp [hexByte, hhigh, hlow]⟩
  ne_nil := by simp
  parse := by
    have hb : b.toNat < 256 := b.isLt
    have hhigh := hexDigit?_digitChar (b.toNat / 16) (by omega)
    have hlow := hexDigit?_digitChar (b.toNat % 16) (by omega)
    have hvalue : b.toNat / 16 * 16 + b.toNat % 16 = b.toNat := Nat.div_add_mod' ..
    simp [hexByte, parseNumber, digitsFrom, hhigh, hlow, hvalue]

/-- Decimal digits are a number: `x` is none of them, so they do not begin with `0x` (R184). -/
theorem parseNumber_of_digits (hne : t ≠ []) (h : digitsFrom 10 decDigit? 0 t = some v) :
    parseNumber t = some v := by
  unfold parseNumber
  split
  · exact absurd rfl hne
  · simp [digitsFrom, decDigit?] at h
  · exact h

theorem digitsFrom_decimal (hv : v < 1000) : digitsFrom 10 decDigit? 0 (decimal v) = some v := by
  have hhundreds := decDigit?_digitChar (v / 100) (by omega)
  have htens := decDigit?_digitChar (v / 10 % 10) (by omega)
  have hones := decDigit?_digitChar (v % 10) (by omega)
  by_cases h100 : 100 ≤ v
  · have h10 : 10 ≤ v := by omega
    simp [decimal, digitsFrom, h100, h10, hhundreds, htens, hones]
    omega
  · by_cases h10 : 10 ≤ v
    · simp [decimal, digitsFrom, h100, h10, htens, hones]
      omega
    · simp [decimal, digitsFrom, h100, h10, hones]
      omega

theorem decimal_unbroken (hv : v < 1000) : Unbroken (decimal v) := by
  have hhundreds := digitChar_not_separator (v / 100) (by omega)
  have htens := digitChar_not_separator (v / 10 % 10) (by omega)
  have hones := digitChar_not_separator (v % 10) (by omega)
  simp only [Unbroken, decimal, List.forall_mem_append, List.forall_mem_singleton]
  refine ⟨⟨?_, ?_⟩, hones⟩
  · split <;> simp [hhundreds]
  · split <;> simp [htens]

theorem numeral_decimal (hv : v < 1000) : Numeral (decimal v) v :=
  have hne : decimal v ≠ [] := by simp [decimal]
  ⟨decimal_unbroken hv, hne, parseNumber_of_digits hne (digitsFrom_decimal hv)⟩

/-! ### The listing -/

/-- A line without an operand is its mnemonic alone (R205). -/
theorem encodeLine_listing_bare (hop : findMnemonic i.mnemonic.toList = some (.bare i))
    (htext : listingOperand addr ⟨i, none⟩ = []) :
    encodeLine [] addr (tokens (listing addr ⟨i, none⟩)) = .ok (encode ⟨i, none⟩) := by
  obtain ⟨hword, hne⟩ := findMnemonic_unbroken hop
  rw [listing, htext, List.append_nil, tokens_word hword hne]
  exact encodeLine_bare i hop

/-- A line whose operand is printed as a number encodes that number (R192, R205). -/
theorem encodeLine_listing_numeral (hop : findMnemonic i.mnemonic.toList = some op) (harity : op.arity = 1)
    (htext : listingOperand addr ⟨i, o⟩ = ' ' :: t) (hnum : Numeral t v) (hmax : v ≤ op.maxOperand) :
    encodeLine [] addr (tokens (listing addr ⟨i, o⟩)) = .ok (encode (op.code addr v)) := by
  obtain ⟨hword, hne⟩ := findMnemonic_unbroken hop
  rw [listing, htext, tokens_word_space hword hne, tokens_word hnum.unbroken hnum.ne_nil]
  exact encodeLine_operand_in_range hop harity hnum.operandValue hmax

theorem encodeLine_listing_direct {f : Nibble → Instr} {d : Nibble}
    (hop : findMnemonic (f d).mnemonic.toList = some (.direct f))
    (htext : listingOperand addr ⟨f d, none⟩ = ' ' :: decimal d.toNat) :
    encodeLine [] addr (tokens (listing addr ⟨f d, none⟩)) = .ok (encode ⟨f d, none⟩) := by
  have hd : d.toNat ≤ 15 := Nat.le_of_lt_succ d.isLt
  rw [encodeLine_listing_numeral hop rfl htext (numeral_decimal (by omega)) hd, AsmOp.code,
    BitVec.ofNat_toNat, BitVec.setWidth_eq]

/-- The target printed is the one whose offset byte was read (R205; D24). -/
theorem jumpOffset_jumpTarget (addr : Nat) (off : Byte) : jumpOffset addr (jumpTarget addr off) = off := by
  have hoff : off.toNat < 256 := off.isLt
  have h := jumpOffset_toNat addr (jumpTarget addr off)
  apply BitVec.eq_of_toNat_eq
  rw [jumpTarget] at h ⊢
  omega

theorem encodeLine_listing_jump (hop : findMnemonic i.mnemonic.toList = some (.jump i))
    (htext : listingOperand addr ⟨i, some off⟩ = ' ' :: decimal (jumpTarget addr off)) :
    encodeLine [] addr (tokens (listing addr ⟨i, some off⟩)) = .ok (encode ⟨i, some off⟩) := by
  have htarget : jumpTarget addr off ≤ 255 := Nat.le_of_lt_succ (Nat.mod_lt _ (by decide))
  rw [encodeLine_listing_numeral hop rfl htext (numeral_decimal (by omega)) htarget, AsmOp.code,
    jumpOffset_jumpTarget]

theorem encodeLine_listing_load (b : Byte) :
    encodeLine [] addr (tokens (listing addr ⟨.load, some b⟩)) = .ok (encode ⟨.load, some b⟩) := by
  have hb : b.toNat ≤ 255 := Nat.le_of_lt_succ b.isLt
  have htext : listingOperand addr ⟨.load, some b⟩ = ' ' :: ("0x".toList ++ hexByte b) := rfl
  have h := encodeLine_listing_numeral (op := .load) (by rw [Instr.mnemonic]; rfl) rfl htext (numeral_hexByte b) hb
  rwa [AsmOp.code, BitVec.ofNat_toNat, BitVec.setWidth_eq] at h

theorem encodeLine_listing_call (n : Nibble) (b : Byte) :
    encodeLine [] addr (tokens (listing addr ⟨.call n, some b⟩)) = .ok (encode ⟨.call 0, some b⟩) := by
  have hb : b.toNat ≤ 255 := Nat.le_of_lt_succ b.isLt
  have htext : listingOperand addr ⟨.call n, some b⟩ = ' ' :: decimal b.toNat := rfl
  have hnum : Numeral (decimal b.toNat) b.toNat := numeral_decimal (by omega)
  have h := encodeLine_listing_numeral (op := .call) (by rw [Instr.mnemonic]; rfl) rfl htext hnum hb
  rwa [encode_call hb, BitVec.ofNat_toNat, BitVec.setWidth_eq] at h

/-- A well-formed code has a second byte exactly if its length is 2 (R70, R73). -/
theorem operand_of_length_one {c : Code} (h : c.wellFormed = true) (hlen : c.instr.length = 1) : c.operand = none := by
  simpa [Code.wellFormed, hlen] using h

theorem operand_of_length_two {c : Code} (h : c.wellFormed = true) (hlen : c.instr.length = 2) :
    ∃ b, c.operand = some b := by
  simpa [Code.wellFormed, hlen, Option.isSome_iff_exists] using h

/-- Settles O60: each instruction's form, with the number its listing prints; the printed CALL has no nibble. -/
theorem listingReassembles : Obligations.ListingReassembles := by
  rintro addr ⟨i, o⟩ hwf hlegal
  cases i with
  | load =>
    obtain ⟨b, rfl⟩ := operand_of_length_two hwf rfl
    exact encodeLine_listing_load b
  | call n =>
    obtain ⟨b, rfl⟩ := operand_of_length_two hwf rfl
    exact encodeLine_listing_call n b
  | jmp | jz | jnz =>
    obtain ⟨b, rfl⟩ := operand_of_length_two hwf rfl
    exact encodeLine_listing_jump rfl rfl
  | store d | add d | sub d | and d | or d | xor d =>
    obtain rfl := operand_of_length_one hwf rfl
    exact encodeLine_listing_direct (by rw [Instr.mnemonic]; rfl) rfl
  | illegalF9 | illegalFA x | illegalFC x => exact absurd rfl hlegal
  | _ =>
    obtain rfl := operand_of_length_one hwf rfl
    exact encodeLine_listing_bare rfl rfl

end Sys2Proof.Asm
end

section
/-! PROOFS. Interrupt entry and its return, and that an execute phase that halts changes nothing else
(spec/60_exceptions.md section 1, R231 to R237; D2, D6, D15). -/

namespace Sys2Proof.Machine

variable {s t : State} {p : Byte} {r : HaltReason}

/-! ### The request -/

/-- A request that is not gated, to a machine with a PC to save and room for it (R236). -/
theorem interruptEntry_of_push (hh : s.halted = false) (he : s.interruptEnabled = true) (hp : s.pc = pcOfByte p)
    (hpush : push p s = .ok t) : interruptEntry s = jumpTo (t.mem.read t.interruptVector) t := by
  simp [interruptEntry, hh, he, hp, hpush]

/-- A halted or disabled machine ignores a request (R235). -/
theorem interruptEntry_gated (h : s.halted = true ∨ s.interruptEnabled = false) : interruptEntry s = s :=
  if_pos (by simpa using h)

/-- A request that is not gated halts for the reason `interruptStopReason` gives, and only the halt is written. -/
theorem interruptEntry_of_stopReason (hh : s.halted = false) (he : s.interruptEnabled = true)
    (hr : interruptStopReason s = some r) : interruptEntry s = setHalt true r s := by
  obtain ⟨hoff, -⟩ | ⟨-, -, hp, h⟩ | ⟨-, -, hp, hsp, h⟩ | ⟨p, -, -, hp, hsp, -⟩ := interruptEntry_cases s
  · simp [hh, he] at hoff
  · rw [interruptStopReason, if_pos hp] at hr
    cases hr; exact h
  · rw [interruptStopReason, if_neg hp, if_pos hsp] at hr
    cases hr; exact h
  · rw [interruptStopReason, if_neg (hp ▸ pcOfByte_ne_end p), if_neg hsp] at hr
    cases hr

/-- Settles O34: the gate comes first, and past it END and the stack bound are the two reasons to stop. -/
theorem interruptRequestGateAndFaults : Obligations.InterruptRequestGateAndFaults := fun _ =>
  ⟨interruptEntry_gated,
    fun hh he hp => interruptEntry_of_stopReason hh he (interruptStopReason_eq_memoryOutOfRange.2 hp),
    fun hh he hp hsp => interruptEntry_of_stopReason hh he (interruptStopReason_eq_stackOverflow.2 ⟨hp, hsp⟩)⟩

/-- Settles O33: the entry is `Push` of PC and a jump, which writes PC alone, through the vector cell as it
stands after the push. -/
theorem interruptEntryPushesPcAndJumps : Obligations.InterruptEntryPushesPcAndJumps := by
  intro s p hh he hp hsp
  obtain ⟨t, hpush, hmove, hread, hframe⟩ := push_above_bound p hsp
  have hvector : t.interruptVector = s.interruptVector := by rw [hframe]
  rw [interruptEntry_of_push hh he (Fin.ext hp) hpush, hvector]
  exact ⟨hmove, hread, rfl, congrArg (jumpTo (t.mem.read s.interruptVector)) hframe⟩

/-! ### The return -/

/-- Settles O35: the entry leaves SP at the byte it pushed, which is the one RET takes as PC; RET writes no other
field than those the entry wrote, but for the flags. -/
theorem retReturnsFromAnInterrupt : Obligations.RetReturnsFromAnInterrupt := by
  intro s hh he hlt hsp
  obtain ⟨hend, -⟩ | ⟨p, hp, -⟩ := pc_cases s.pc
  · exact absurd hend ((pc_ne_end_iff s.pc).2 hlt)
  obtain ⟨hdown, hread, -, hentry⟩ := interruptEntryPushesPcAndJumps s p hh he (congrArg Fin.val hp) hsp
  obtain ⟨-, hret⟩ := retPopsThePc (interruptEntry s)
  have hbelow : (interruptEntry s).sp.toNat < 255 := by
    have hbyte := s.sp.isLt
    omega
  obtain ⟨t, ht, hpc, hup, hflags, hframe⟩ := hret hbelow
  have hpcBack : t.pc = s.pc := Fin.ext (by rw [hpc, hread, if_pos rfl, hp, pcOfByte_val])
  have hspBack : t.sp = s.sp := BitVec.eq_of_toNat_eq (by rw [hup, hdown, Nat.sub_add_cancel hsp])
  refine ⟨t, ht, hflags, ?_⟩
  rw [hpcBack, hspBack] at hframe
  exact hframe.trans (congrArg (fun u => setZN t.z t.n (setPc s.pc (setSp s.sp u))) hentry)

/-! ### An execute phase that halts -/

/-- Settles O42: of what an execute phase can do only the halt stops a running machine, since a wait and an effect
leave `halted` alone. -/
theorem haltingInstructionChangesNothingElse : Obligations.HaltingInstructionChangesNothingElse := by
  intro i s t hh h hhalt
  obtain ⟨r, -, rfl⟩ | ⟨-, -, rfl⟩ | ⟨-, -, rfl⟩ := exec_next_cases h
  · rw [raiseHalt_running r hh]
    exact ⟨updateZN_flagsOfA _, rfl⟩
  · simp [hh] at hhalt
  · simp [effect_halted, hh] at hhalt

end Sys2Proof.Machine
end

section
/-! PROOFS. Decoding what was encoded: the decoder reads each instruction back from its first byte, which alone says
whether a second one belongs to it (spec/30_encoding.md sections 1 to 3, R70 to R79). -/

namespace Sys2Proof

variable {i : Instr} {b : Byte}

/-! ### The first byte -/

/-- No operand bit is lost: a nibble comes back from the operand field, and the bits by which illegal bytes
differ from the low end of it. -/
theorem decodeFirst_encodeFirst (i : Instr) : decodeFirst (encodeFirst i) = i := by
  cases i with
  | store d | add d | sub d | and d | or d | xor d | call d => simp [encodeFirst, decodeFirst]
  | illegalFA x | illegalFC x => revert x; decide
  | _ => rfl

/-! ### The whole instruction -/

theorem Instr.length_eq_one_or_two (i : Instr) : i.length = 1 ∨ i.length = 2 := by
  cases i <;> simp [Instr.length]

theorem decode_of_length_one (hi : decodeFirst b = i) (hlen : i.length = 1) (rest : List Byte) :
    decode (b :: rest) = .ok (⟨i, none⟩, rest) := by
  simp [decode, hi, hlen]

theorem decode_of_length_two (hi : decodeFirst b = i) (hlen : i.length = 2) (b2 : Byte) (rest : List Byte) :
    decode (b :: b2 :: rest) = .ok (⟨i, some b2⟩, rest) := by
  simp [decode, hi, hlen]

/-- Settles O1: the first byte gives the instruction back, and its length says that the next byte belongs to it
exactly where a well-formed code has one. -/
theorem decodeOfEncodeGivesInstructionBack : Obligations.DecodeOfEncodeGivesInstructionBack := by
  rintro ⟨i, o⟩ rest hwf
  obtain hlen | hlen := i.length_eq_one_or_two
  · obtain rfl : o = none := Asm.operand_of_length_one hwf hlen
    exact decode_of_length_one (decodeFirst_encodeFirst i) hlen rest
  · obtain ⟨b2, rfl⟩ : ∃ b2, o = some b2 := Asm.operand_of_length_two hwf hlen
    exact decode_of_length_two (decodeFirst_encodeFirst i) hlen b2 rest

end Sys2Proof
end

section
/-! PROOFS. The end of a run under any answers of the host: a halted run and a stuck one both stay as they are, and
a halted machine does not wait, so a run comes to at most one of the two (spec/70_reset_and_hazards.md section 3,
R268; D17, D18, log 2). -/

namespace Sys2Proof.Machine

variable {host : Answers} {s : State} {r : Run} {k m : Nat}

/-! ### One move of a run -/

theorem Run.move_of_not_waiting (hw : r.state.waiting = false) :
    r.move host = ⟨hostStep r.state, r.answered⟩ := by
  simp [Run.move, hw]

theorem Run.move_of_stuck (h : r.stuck host) : r.move host = r := by
  obtain ⟨hw, hnone⟩ := h
  simp [Run.move, hw, hnone]

theorem Run.move_of_answered (hw : r.state.waiting = true) (h : ¬ r.stuck host) :
    ∃ inp, r.move host = ⟨completeIn inp r.state, r.answered + 1⟩ := by
  obtain ⟨inp, hinp⟩ := Option.ne_none_iff_exists'.1 fun hnone => h ⟨hw, hnone⟩
  exact ⟨inp, by simp [Run.move, hw, hinp]⟩

theorem State.WaitAtIn.not_waiting_of_halted (hs : s.WaitAtIn) (hh : s.halted = true) : s.waiting = false := by
  by_contra hw
  obtain ⟨hrunning, -⟩ := hs (by simpa using hw)
  simp [hh] at hrunning

theorem Run.move_of_halted (hr : r.state.WaitAtIn) (hh : r.state.halted = true) : r.move host = r := by
  rw [Run.move_of_not_waiting (hr.not_waiting_of_halted hh), hostStep_of_step (step_of_stopped (.inl hh))]

theorem Run.move_waitAtIn (hr : r.state.WaitAtIn) : (r.move host).state.WaitAtIn := by
  cases hw : r.state.waiting with
  | false =>
    rw [Run.move_of_not_waiting hw]
    exact step_waitAtIn hr (step_eq_hostStep r.state)
  | true =>
    by_cases hstuck : r.stuck host
    · rwa [Run.move_of_stuck hstuck]
    · obtain ⟨inp, hmove⟩ := Run.move_of_answered hw hstuck
      rw [hmove]
      exact waitAtIn_of_inWait_none (completeIn_inWait inp r.state)

/-! ### The run from a state on -/

theorem runAfter_waitAtIn (hs : s.WaitAtIn) (k : Nat) : (runAfter host s k).state.WaitAtIn := by
  induction k with
  | zero => exact hs
  | succ k ih => exact Run.move_waitAtIn ih

/-- A run that a move leaves as it is has come to its end. -/
theorem runAfter_of_move_eq (hfix : (runAfter host s k).move host = runAfter host s k) (hle : k ≤ m) :
    runAfter host s m = runAfter host s k := by
  induction m, hle using Nat.le_induction with
  | base => rfl
  | succ m _ ih => rw [runAfter, ih, hfix]

theorem runAfter_of_halted (hs : s.WaitAtIn) (hh : (runAfter host s k).state.halted = true) (hle : k ≤ m) :
    runAfter host s m = runAfter host s k :=
  runAfter_of_move_eq (Run.move_of_halted (runAfter_waitAtIn hs k) hh) hle

theorem runAfter_of_stuck (h : (runAfter host s k).stuck host) (hle : k ≤ m) :
    runAfter host s m = runAfter host s k :=
  runAfter_of_move_eq (Run.move_of_stuck h) hle

/-! ### The three ends -/

/-- A run that has both halted and got stuck would by the later of the two moves be in one state that is halted
and waits. -/
theorem not_endsFinal_and_endsWaiting (hs : s.WaitAtIn) : ¬ (s.endsFinal host ∧ s.endsWaiting host) := by
  rintro ⟨⟨k, hh⟩, ⟨m, hstuck⟩⟩
  have heq : runAfter host s k = runAfter host s m :=
    (runAfter_of_halted hs hh (le_max_left k m)).symm.trans (runAfter_of_stuck hstuck (le_max_right k m))
  rw [heq] at hh
  have hrunning := (runAfter_waitAtIn hs m).not_waiting_of_halted hh
  obtain ⟨hwaiting, -⟩ := hstuck
  simp [hwaiting] at hrunning

/-- Endless is what a run is that comes to neither of the two other ends. -/
theorem endless_iff : s.endless host ↔ ¬ s.endsFinal host ∧ ¬ s.endsWaiting host := by
  simp [State.endless, State.endsFinal, State.endsWaiting, forall_and]

/-- Settles O53: a run that is neither final nor waiting is endless by definition, and an answered IN is
completed at once. -/
theorem runEndsInExactlyOneWay : Obligations.RunEndsInExactlyOneWay := by
  intro host s hs
  refine ⟨?_, not_endsFinal_and_endsWaiting hs, fun ⟨hfinal, hendless⟩ => (endless_iff.1 hendless).1 hfinal,
    fun ⟨hwaiting, hendless⟩ => (endless_iff.1 hendless).2 hwaiting, fun k hw hstuck => ?_⟩
  · rw [endless_iff]
    tauto
  · obtain ⟨inp, hmove⟩ := Run.move_of_answered hw hstuck
    rw [runAfter, hmove]
    exact (waiting_eq_false _).2 (completeIn_inWait inp _)

end Sys2Proof.Machine
end
